-- ==== Sys2Proof/Word.lean ====
section
/-! DEFINITION. The widths of the data the block moves (spec 00_scope.md R5). -/

namespace Sys2Proof

/-- `DATA_W` = 8: a byte on the bus and in every data register (R5). -/
abbrev Byte := BitVec 8

/-- The command word (30_encoding.md R55). -/
abbrev Word := BitVec 32

/-- `COUNT_W` = 16: a byte count and the loop position (R5). -/
abbrev Count := BitVec 16

/-- `RATE_W` = 24: the requested bit rate of INIT (R5). -/
abbrev Rate := BitVec 24

/-- `CLKSEL_W` = 2: the clock-source selector (R5). -/
abbrev ClkSel := BitVec 2

/-- The opcode field, bits 31:28 of a command word (30_encoding.md R55). -/
abbrev Opcode := BitVec 4

end Sys2Proof
end

