-- ==== Sys2Proof/Syntax.lean ====
section
/-! DEFINITION. The seven operations (30_encoding.md R58), their assembler form (R64), and the reasons a
command word is illegal (R61, R62). -/

namespace Sys2Proof

/-- The operations of the block, operands in the order of the assembler syntax (R64). The buffer of SENDBUF,
RECVBUF and SARECV is no operand: the host designates it at the buffer port (R57, 10_state.md R32). -/
inductive Instr where
  /-- `INIT clksel, rate, ckph, ckpl` (40_configuration.md R70). -/
  | init (clksel : ClkSel) (rate : Rate) (ckph ckpl : Bool)
  /-- `SENDBUF count` (43_transfer_send.md R100). -/
  | sendbuf (count : Count)
  /-- `SENDBYTE byte` (43_transfer_send.md R104). -/
  | sendbyte (byte : Byte)
  /-- `RECVBUF count` (44_transfer_receive.md R110). -/
  | recvbuf (count : Count)
  /-- `RECVBYTE` (44_transfer_receive.md R113). -/
  | recvbyte
  /-- `SARECV regaddr, count` (45_register_read.md R120). -/
  | sarecv (regaddr : Byte) (count : Count)
  /-- `SARECVB regaddr` (45_register_read.md R127). -/
  | sarecvb (regaddr : Byte)
  deriving DecidableEq, Repr

/-- The value of `OP` of each operation (R58); it is also what the latch `OPC` holds (R59). -/
def Instr.opcode : Instr → Opcode
  | .init _ _ _ _ => 1
  | .sendbuf _ => 2
  | .sendbyte _ => 3
  | .recvbuf _ => 4
  | .recvbyte => 5
  | .sarecv _ _ => 6
  | .sarecvb _ => 7

/-- The mnemonics of R58 and R64. -/
inductive Mnemonic where
  | init | sendbuf | sendbyte | recvbuf | recvbyte | sarecv | sarecvb
  deriving DecidableEq, Repr

/-- The mnemonic as the opcode table spells it. -/
def Mnemonic.name : Mnemonic → String
  | .init => "INIT"
  | .sendbuf => "SENDBUF"
  | .sendbyte => "SENDBYTE"
  | .recvbuf => "RECVBUF"
  | .recvbyte => "RECVBYTE"
  | .sarecv => "SARECV"
  | .sarecvb => "SARECVB"

/-- A command as it is written (R64): a mnemonic and its operands, plain numbers in the order of the source's call. -/
structure AsmLine where
  op : Mnemonic
  operands : List Nat
  deriving DecidableEq, Repr

/-- How an operation is written (R64). -/
def Instr.toAsm : Instr → AsmLine
  | .init clksel rate ckph ckpl => ⟨.init, [clksel.toNat, rate.toNat, ckph.toNat, ckpl.toNat]⟩
  | .sendbuf count => ⟨.sendbuf, [count.toNat]⟩
  | .sendbyte byte => ⟨.sendbyte, [byte.toNat]⟩
  | .recvbuf count => ⟨.recvbuf, [count.toNat]⟩
  | .recvbyte => ⟨.recvbyte, []⟩
  | .sarecv regaddr count => ⟨.sarecv, [regaddr.toNat, count.toNat]⟩
  | .sarecvb regaddr => ⟨.sarecvb, [regaddr.toNat]⟩

/-- Why a command word selects no row of the opcode map (R62). -/
inductive Reject where
  /-- Opcode 0x0 or 0x8 to 0xF (R58, R63). -/
  | opcode (op : Opcode)
  /-- A must-be-zero bit of the format is 1 (R61). -/
  | reservedBits (op : Opcode)
  deriving DecidableEq, Repr

end Sys2Proof
end

