-- ==== Sys2Proof/WellFormed.lean ====
section
/-! DEFINITION. Which written commands can be encoded (R57, R61, R64; 91_not_in_source.md N5) and which command
words are legal (R58, R61, R62). -/

namespace Sys2Proof

/-- A written command has the right number of operands and each fits its field (R57): `clksel` 2 bits, `rate` 24
bits, `ckph` and `ckpl` 1 bit, a count 16 bits, a byte or register address 8 bits. Every value that fits is legal
(R61); one that does not fit cannot be encoded (N5). -/
def AsmLine.wf (l : AsmLine) : Bool :=
  match l.op, l.operands with
  | .init, [clksel, rate, ckph, ckpl] => clksel < 2 ^ 2 && rate < 2 ^ 24 && ckph < 2 && ckpl < 2
  | .sendbuf, [count] => count < 2 ^ 16
  | .sendbyte, [byte] => byte < 2 ^ 8
  | .recvbuf, [count] => count < 2 ^ 16
  | .recvbyte, [] => true
  | .sarecv, [regaddr, count] => regaddr < 2 ^ 8 && count < 2 ^ 16
  | .sarecvb, [regaddr] => regaddr < 2 ^ 8
  | _, _ => false

/-- An operation is well formed when what it is written as can be encoded. The widths of its operands are those of
its fields, so every operation is (Laws/PerInstr.lean). -/
def Instr.wf (i : Instr) : Bool := i.toAsm.wf

/-- One row of the opcode map (R58). -/
structure Row where
  mnemonic : Mnemonic
  pattern : Word
  mask : Word
  deriving DecidableEq, Repr

/-- The opcode map, row by row as R58 gives `match` and `mask`. -/
def opcodeMap : List Row :=
  [ ⟨.init, 0x10000000, 0xF0000000⟩,
    ⟨.sendbuf, 0x20000000, 0xFFFF0000⟩,
    ⟨.sendbyte, 0x30000000, 0xFFFFFF00⟩,
    ⟨.recvbuf, 0x40000000, 0xFFFF0000⟩,
    ⟨.recvbyte, 0x50000000, 0xFFFFFFFF⟩,
    ⟨.sarecv, 0x60000000, 0xFF000000⟩,
    ⟨.sarecvb, 0x70000000, 0xFFFFFF00⟩ ]

/-- "A word `W` selects a row when `W AND mask = match`" (R58). -/
def Row.selects (r : Row) (w : Word) : Bool := w &&& r.mask == r.pattern

/-- A word is legal when it selects a row (R62). -/
def legalWord (w : Word) : Bool := opcodeMap.any (fun r => r.selects w)

end Sys2Proof
end

