-- ==== Sys2Proof/Decode.lean ====
section
/-! DEFINITION. The decoder and the encoder of command words (30_encoding.md R55 to R62), and the assembler's
reading of a written command (R64). -/

namespace Sys2Proof

/-- Decode a command word, rejecting illegal ones by name: the opcode field chooses the format, the must-be-zero
bits of the format are checked (R61), and every operand is a field taken as it stands (R57). -/
def decode (w : Word) : Except Reject Instr :=
  match (w.extractLsb' 28 4).toNat with
  | 1 => .ok (.init (w.extractLsb' 26 2) (w.extractLsb' 0 24) (w.getLsbD 25) (w.getLsbD 24))
  | 2 => if w.extractLsb' 16 12 = 0 then .ok (.sendbuf (w.extractLsb' 0 16)) else .error (.reservedBits 2)
  | 3 => if w.extractLsb' 8 20 = 0 then .ok (.sendbyte (w.extractLsb' 0 8)) else .error (.reservedBits 3)
  | 4 => if w.extractLsb' 16 12 = 0 then .ok (.recvbuf (w.extractLsb' 0 16)) else .error (.reservedBits 4)
  | 5 => if w.extractLsb' 0 28 = 0 then .ok .recvbyte else .error (.reservedBits 5)
  | 6 => if w.extractLsb' 24 4 = 0 then .ok (.sarecv (w.extractLsb' 0 8) (w.extractLsb' 8 16))
         else .error (.reservedBits 6)
  | 7 => if w.extractLsb' 8 20 = 0 then .ok (.sarecvb (w.extractLsb' 0 8)) else .error (.reservedBits 7)
  | _ => .error (.opcode (w.extractLsb' 28 4))

/-- The command word of an operation, field by field from the most significant (R56: formats I, B, V, N, A). -/
def encode : Instr → Word
  | .init clksel rate ckph ckpl => 0x1#4 ++ clksel ++ BitVec.ofBool ckph ++ BitVec.ofBool ckpl ++ rate
  | .sendbuf count => 0x2#4 ++ 0#12 ++ count
  | .sendbyte byte => 0x3#4 ++ 0#20 ++ byte
  | .recvbuf count => 0x4#4 ++ 0#12 ++ count
  | .recvbyte => 0x5#4 ++ 0#28
  | .sarecv regaddr count => 0x6#4 ++ 0#4 ++ count ++ regaddr
  | .sarecvb regaddr => 0x7#4 ++ 0#20 ++ regaddr

/-- Read a written command (R64); one that does not fit its fields has no operation. -/
def assemble (l : AsmLine) : Option Instr :=
  if l.wf then
    match l.op, l.operands with
    | .init, [clksel, rate, ckph, ckpl] =>
      some (.init (.ofNat 2 clksel) (.ofNat 24 rate) (ckph == 1) (ckpl == 1))
    | .sendbuf, [count] => some (.sendbuf (.ofNat 16 count))
    | .sendbyte, [byte] => some (.sendbyte (.ofNat 8 byte))
    | .recvbuf, [count] => some (.recvbuf (.ofNat 16 count))
    | .recvbyte, [] => some .recvbyte
    | .sarecv, [regaddr, count] => some (.sarecv (.ofNat 8 regaddr) (.ofNat 16 count))
    | .sarecvb, [regaddr] => some (.sarecvb (.ofNat 8 regaddr))
    | _, _ => none
  else none

/-- The word whose bits are the low `nbits` bits of `w`, every bit above them 0 (all commands are one 32-bit word,
R55; bit 0 is its least significant bit). -/
def tableWord (nbits w : Nat) : Word := BitVec.ofNat 32 (w % 2 ^ nbits)

/-- What the decoder reads from an instruction whose bits are `w`, numbered as the opcode table numbers them. -/
def decodeTableWord (nbits w : Nat) : Option Instr :=
  match decode (tableWord nbits w) with
  | .ok i => some i
  | .error _ => none

end Sys2Proof
end

