-- ==== Sys2Proof/Config.lean ====
section
/-! DEFINITION. What the spec leaves open (00_scope.md R5, 92_eei_decisions.md, 93_implementation_defined.md): the
parameters of an implementation and the free choices of the environment. Every `opaque` constant has no body, so no
proof can lean on its value. -/

namespace Sys2Proof

/-- The agents that take steps (20_memory.md R46). The fifth agent, SLAVE, has no step of its own: it answers the
draw inside COMPLETE (`Config.slave`). -/
inductive Agent where
  /-- The application: presents and issues commands. -/
  | host
  /-- The transfer engine's sequencer. -/
  | seq
  /-- The bus controller's shifter. -/
  | shf
  /-- The interrupt handler. -/
  | irq
  deriving DecidableEq, Repr, Inhabited

/-- An order of turns, one agent per step, in which each of SEQ, SHF and IRQ moves again and again (20_memory.md R53,
92_eei_decisions.md D4: weak fairness is assumed of these three). A turn of an agent with no enabled step changes
nothing, so under such an order a step that stays enabled is taken, and every weakly fair run has, with such turns put
in, a fair order (log 19). -/
def FairOrder (order : Nat → Agent) : Prop := ∀ a, a ≠ .host → ∀ n, ∃ m, n ≤ m ∧ order m = a

/-- SEQ, SHF, IRQ in turn for ever: an order that shows there are fair ones. No step uses it. -/
def rotation (n : Nat) : Agent := if n % 3 = 0 then .seq else if n % 3 = 1 then .shf else .irq

theorem rotation_fair : FairOrder rotation := by
  intro a ha n
  cases a with
  | host => exact absurd rfl ha
  | seq => exact ⟨3 * n, by omega, by simp [rotation]⟩
  | shf => exact ⟨3 * n + 1, by omega, by simp [rotation]⟩
  | irq => exact ⟨3 * n + 2, by omega, by simp [rotation]⟩

/-- A fair order of turns, with its fairness (R53). -/
structure FairSchedule where
  turn : Nat → Agent := rotation
  fair : FairOrder turn := by exact rotation_fair
  deriving Inhabited

/-- A move of the host between operations (60_exceptions.md R153): the legal command it presents and the buffer it
designates for it, whose capacity `BUFCAP` is the number of its bytes. -/
structure HostMove where
  command : Instr
  bytes : List Byte
  deriving DecidableEq, Repr

/-- The clock-dependent parameters INIT uses (R5): which selector codes are recognized, the default code, the
frequency query, and the divider function. -/
structure ClockParams where
  recognized : ClkSel → Bool
  default : ClkSel
  freq : ClkSel → Nat
  brdivOf : Nat → Rate → BitVec 16

namespace Config

/-- `CLK_DEFAULT` (R71), OPEN. DESIGN CHOICE: left open rather than fixed at the spec's instance 2 (log 3). -/
opaque clkDefault : ClkSel

/-- The members of `CLK_RECOGNIZED` beside the default, OPEN (R71, log 3). -/
opaque clkOther : ClkSel → Bool

/-- `CLK_RECOGNIZED` (R71); "`CLK_DEFAULT` must be a member of `CLK_RECOGNIZED`". -/
def clkRecognized (c : ClkSel) : Bool := c == clkDefault || clkOther c

/-- `CLKFREQ`, the clock subsystem's answer for a source (R72), OPEN (log 3). -/
opaque clkFreq : ClkSel → Nat

/-- `BRDIV_OF`, a total function of frequency and rate alone (R73), OPEN (log 4). -/
opaque brdivOf : Nat → Rate → BitVec 16

/-- The parameters of this implementation. -/
def clock : ClockParams := ⟨clkRecognized, clkDefault, clkFreq, brdivOf⟩

/-- `SETTLE_CYCLES`, a natural number, may be 0 (45_register_read.md R123, 60_exceptions.md R145), OPEN (log 5). -/
opaque settleCycles : Nat

/-- `SLAVE`: the byte the responding device shifts in during an exchange (41_bus_controller_shifter.md R82). A free
value for every exchange: it may depend on the moment (which stands for what lies outside the block, such as
chip-select), on all earlier exchanges and on the byte shifted out (log 2). -/
opaque slave : Nat → List (Byte × Byte) → Byte → Byte

/-- Which agent moves at each step: "which enabled step is taken next is free" (20_memory.md R46, log 1), but for weak
fairness, "a step that stays enabled is eventually taken" (R53, log 19). -/
opaque schedule : FairSchedule

/-- What the host does at a turn of its own while the port is empty (60_exceptions.md R153): nothing, or present a
command and a buffer (log 10). -/
opaque hostMove : Nat → Option HostMove

/-- The recommended instance of `BRDIV_OF` (R73; PRESUMED by the spec, its general knowledge K2), `rate0` standing
for the OPEN constant `BRDIV_RATE0`. No step uses it: the tests do (log 4). -/
def recommendedBrdivOf (rate0 : BitVec 16) (f : Nat) (rate : Rate) : BitVec 16 :=
  if rate = 0 then rate0 else BitVec.ofNat 16 (min 65535 (max 1 (f / rate.toNat)))

/-- The environment of the spec's vectors (95_test_vectors.md, conventions), with `BRDIV_RATE0` given. Only the tests
use it. -/
def exampleClock (rate0 : BitVec 16) : ClockParams :=
  ⟨fun c => c == 1 || c == 2, 2, fun c => if c = 1 then 8000000 else 1000000, recommendedBrdivOf rate0⟩

end Config

end Sys2Proof
end

