-- ==== Sys2Proof/Machine/State.lean ====
section
/-! DEFINITION. The state of the machine as plain data (10_state.md), its value after power-on (70_reset_and_hazards.md
R155), and the reasons a step can stop. -/

namespace Sys2Proof.Machine

/-- The 19 phases of the sequencer (10_state.md R20); there is no phase AW4. -/
inductive Phase where
  | idle | cfInit
  | aw1 | aw2 | aw3 | aw5
  | sbLoop | sbNext | sbPoll
  | rbLoop | rbStore
  | rrAddr | rrDisc | rrSet1 | rrDly1 | rrLoop | rrStore | rrSet2 | rrDly2
  deriving DecidableEq, Repr

/-- The kinds of byte-complete event (10_state.md R19, 60_exceptions.md R131). -/
inductive Event where
  /-- Transmit-empty. -/
  | txe
  /-- Receive-full. -/
  | rxf
  deriving DecidableEq, Repr

/-- The operands of INIT, held from the issue step to the step of phase CF_INIT (30_encoding.md R59). -/
structure InitArgs where
  clksel : ClkSel
  rate : Rate
  ckph : Bool
  ckpl : Bool
  deriving DecidableEq, Repr

structure State where
  -- Bus Controller State (10_state.md R10 to R17)
  /-- CTL.EN (R11): the controller is enabled. -/
  en : Bool
  /-- CTL.MST (R11): master mode. -/
  mst : Bool
  /-- CTL.M3W (R11): 3-wire mode. -/
  m3w : Bool
  /-- CTL.MSBF (R11): bit order, hardwired 1; no step writes it. -/
  msbf : Bool
  /-- CTL.CKPH (R11): clock phase. -/
  ckph : Bool
  /-- CTL.CKPL (R11): clock polarity. -/
  ckpl : Bool
  /-- CTL.CLKSEL (R11): the selected bus clock source. -/
  clksel : ClkSel
  /-- BRDIV (R12): the bus-speed divider. -/
  brdiv : BitVec 16
  /-- IE.TXE (R13): the transmit-empty source is armed. -/
  ieTxe : Bool
  /-- IE.RXF (R13): the receive-full source is armed. -/
  ieRxf : Bool
  /-- IFG.TXE (R14): transmit-empty is pending, a one-bit latch. -/
  ifgTxe : Bool
  /-- IFG.RXF (R14): receive-full is pending, a one-bit latch. -/
  ifgRxf : Bool
  /-- STAT.BUSY (R15): the shift register is active. -/
  busy : Bool
  /-- TXBUF (R16): the transmit register. -/
  txbuf : Byte
  /-- TXFULL (R16): TXBUF holds a byte the shift register has not taken. -/
  txfull : Bool
  /-- SHREG (R17): the byte being shifted out while BUSY = 1. -/
  shreg : Byte
  /-- RXBUF (R17): the last byte completely shifted in. -/
  rxbuf : Byte
  -- Sequencer state (10_state.md R19, R20; 30_encoding.md R59)
  /-- PH (R20): the next sequencer step; the block's program counter. -/
  ph : Phase
  /-- OPC (R19): the opcode of the operation in progress. -/
  opc : Opcode
  /-- CNT (R19): the number of bytes of the operation. -/
  cnt : Count
  /-- IDX (R19): the current loop position. -/
  idx : Count
  /-- ADR (R19): the register address, or the byte of SENDBYTE. -/
  adr : Byte
  /-- DLY (R19, 60_exceptions.md R145): the settling-delay down-counter. -/
  dly : Nat
  /-- EVK (R19): the event awaited by the current `armAndWait`. -/
  evk : Event
  /-- RET (R19): where the sequencer continues after `armAndWait`. -/
  ret : Phase
  /-- RES (R19): the result byte of RECVBYTE and SARECVB. -/
  res : Byte
  /-- The operands of INIT held until CF_INIT (R59). -/
  held : InitArgs
  -- CPU-side synchronization state (10_state.md R21, R22)
  /-- WAIT (R21): the CPU is in the low-power wait state. -/
  wait : Bool
  /-- GIE (R22): global interrupt delivery. -/
  gie : Bool
  -- Observables (10_state.md R24)
  /-- TXLOG (R24): the bytes written to the transmit register, oldest first. -/
  txlog : List Byte
  /-- WIRE (R24): the completed exchanges (out, in), oldest first. -/
  wire : List (Byte × Byte)
  -- The interface to the host (10_state.md R30, R32)
  /-- The command word the host presents, if any (R30). -/
  port : Option Word
  /-- BUF, the contents of the Transfer Buffer, in canonical form (R32, 20_memory.md R40). -/
  buf : List Host.Cell
  /-- BUFCAP, its capacity in bytes (20_memory.md R43). -/
  bufcap : Nat
  -- The model's own: the free choices (20_memory.md R46)
  /-- The agent that moves next. -/
  turn : Agent
  /-- How many free choices have been drawn. -/
  tick : Nat
  deriving DecidableEq, Repr

/-- The machine after power-on (R155). Where the spec says "unspecified" the value is the model's: DESIGN CHOICE, logs
1, 6, 7, 8, 9. `State.powerOn` (Safety.lean) is the spec's own description, which admits every draw. -/
def State.reset : State where
  en := false
  mst := false
  m3w := false
  msbf := true
  ckph := false
  ckpl := false
  clksel := 0
  brdiv := 0
  ieTxe := false
  ieRxf := false
  ifgTxe := false
  ifgRxf := false
  busy := false
  txbuf := 0
  txfull := false
  shreg := 0
  rxbuf := 0
  ph := .idle
  opc := 0
  cnt := 0
  idx := 0
  adr := 0
  dly := 0
  evk := .txe
  ret := .idle
  res := 0
  held := ⟨0, 0, false, false⟩
  wait := false
  gie := false
  txlog := []
  wire := []
  port := none
  buf := []
  bufcap := 65536
  turn := .host
  tick := 0

/-- The block itself raises no fault (60_exceptions.md R130); the model stops on a launch the host broke. -/
inductive Fault where
  /-- A read of the Transfer Buffer at an index at or above BUFCAP: raised by phase SB_LOOP of SENDBUF
  (20_memory.md R43). Safe: the spec gives the access no meaning. -/
  | bufferRead (index : Count)
  /-- A write of the Transfer Buffer at an index at or above BUFCAP: raised by phase RB_STORE of RECVBUF and
  phase RR_STORE of SARECV (20_memory.md R43). Safe: the spec gives the access no meaning. -/
  | bufferWrite (index : Count)
  deriving DecidableEq, Repr

inductive Refusal where
  /-- Raised by an arm of `exec` for an instruction without a meaning; no arm does. Safe. -/
  | notModelled (mnemonic : String)
  /-- Raised by the host's turn when the presented word is illegal (30_encoding.md R62: "A model must `refuse` an
  illegal word"). Safe: a claim says nothing of such a launch. -/
  | illegalCommand (why : Reject)
  deriving DecidableEq, Repr

/-- The outcome of one step. -/
abbrev Result := Host.Outcome State Fault Refusal

end Sys2Proof.Machine
end

