-- ==== Sys2Proof/Machine/Flags.lean ====
section
/-! DEFINITION. The flags (10_state.md R13, R14, R25) by event kind, and every value computed from them: IV (R18), the
interrupt request (60_exceptions.md R133), READY (R23), the contexts (60_exceptions.md R143). -/

namespace Sys2Proof.Machine

/-- `IE.k` (R13). -/
def State.ie (s : State) : Event → Bool
  | .txe => s.ieTxe
  | .rxf => s.ieRxf

/-- `IE.k <- b`: arm (1) or disarm (0) the source `k` (R13). -/
def State.setIe (k : Event) (b : Bool) (s : State) : State :=
  match k with
  | .txe => { s with ieTxe := b }
  | .rxf => { s with ieRxf := b }

/-- `IFG.k` (R14). -/
def State.ifg (s : State) : Event → Bool
  | .txe => s.ifgTxe
  | .rxf => s.ifgRxf

/-- The source `k` is signaled: pending and armed (60_exceptions.md R133). -/
def State.signaled (s : State) (k : Event) : Bool := s.ifg k && s.ie k

/-- IV (R18): 2 when receive-full is signaled, else 4 when transmit-empty is, else 0. The numbers and the precedence
are the spec's general knowledge K1 (log 17). -/
def State.iv (s : State) : Nat :=
  if s.signaled .rxf then 2 else if s.signaled .txe then 4 else 0

/-- The interrupt request is active (R133). -/
def State.irqRequest (s : State) : Bool := s.iv != 0

/-- READY (R23): the previous call has returned and a command may be issued. -/
def State.ready (s : State) : Bool := s.ph == .idle

/-- The execution conditions between steps (60_exceptions.md R143); the interrupt context is the instant of the
handler's step. -/
inductive Context where
  /-- `PH = IDLE`, `WAIT = 0`: the condition belongs to the host. -/
  | hostIdle
  /-- `WAIT = 0`, `PH` not IDLE: the sequencer steps. -/
  | application
  /-- `WAIT = 1`: nobody steps on the CPU side. -/
  | lowPowerWait
  deriving DecidableEq, Repr

/-- The execution condition of a state (R143). -/
def State.context (s : State) : Context :=
  if s.wait then .lowPowerWait else if s.ready then .hostIdle else .application

/-- The bus speed in bits per second, source clock ÷ divider, when the divider is not 0 (10_state.md R12). -/
def State.busSpeed (p : ClockParams) (s : State) : Option Rat :=
  if s.brdiv = 0 then none else some ((p.freq s.clksel : Rat) / (s.brdiv.toNat : Rat))

end Sys2Proof.Machine
end

