-- ==== Sys2Proof/Machine/Ops.lean ====
section
/-! DEFINITION. The shared operations: the Transfer Buffer (20_memory.md R40 to R43), the transmit register
(41_bus_controller_shifter.md R80), the receive register (R88), calling `armAndWait` (42_sync_primitive.md R90), taking
the interrupt (60_exceptions.md R136), and drawing the next free choice (20_memory.md R46). -/

namespace Sys2Proof.Machine

/-- What a buffer index that no entry lists reads as. DESIGN CHOICE (log 7): the contents are the host's. -/
def Memory.unlisted : Byte := 0

/-- The byte at an index. -/
def Memory.read : List Host.Cell → Nat → Byte
  | [], _ => Memory.unlisted
  | (a, v) :: m, i => if a = i then v else Memory.read m i

/-- The memory with the byte `v` at index `i`, kept in canonical form. -/
def Memory.write : List Host.Cell → Nat → Byte → List Host.Cell
  | [], i, v => if v = Memory.unlisted then [] else [(i, v)]
  | (a, b) :: m, i, v =>
    if i < a then (if v = Memory.unlisted then (a, b) :: m else (i, v) :: (a, b) :: m)
    else if i = a then (if v = Memory.unlisted then m else (i, v) :: m)
    else (a, b) :: Memory.write m i v

/-- The entries are at strictly rising indices from `lo` on, and none holds what an unlisted index reads as. -/
def Memory.wfFrom : Nat → List Host.Cell → Bool
  | _, [] => true
  | lo, (a, v) :: m => decide (lo ≤ a) && v != Memory.unlisted && Memory.wfFrom (a + 1) m

/-- The canonical form. -/
def Memory.wf (m : List Host.Cell) : Bool := Memory.wfFrom 0 m

/-- The memory that holds `bytes` from index `i` on. -/
def Memory.ofBytes (i : Nat) : List Byte → List Host.Cell
  | [] => []
  | v :: bytes =>
    if v = Memory.unlisted then Memory.ofBytes (i + 1) bytes else (i, v) :: Memory.ofBytes (i + 1) bytes

/-- `MemRead(i, 1)` (R41): no side effect; an index at or above BUFCAP is a fault of the launch (R43). -/
def State.bufRead (s : State) (i : Count) : Except Fault Byte :=
  if i.toNat < s.bufcap then .ok (Memory.read s.buf i.toNat) else .error (.bufferRead i)

/-- `MemWrite(i, 1, v)` (R42): one byte at index `i`; an index at or above BUFCAP is a fault of the launch (R43). -/
def State.bufWrite (s : State) (i : Count) (v : Byte) : Except Fault State :=
  if i.toNat < s.bufcap then .ok { s with buf := Memory.write s.buf i.toNat v } else .error (.bufferWrite i)

/-- `TxWrite(v)` (R80): it reads and changes no flag of IFG, and a byte not yet taken is replaced. -/
def State.txWrite (v : Byte) (s : State) : State :=
  { s with txbuf := v, txfull := true, txlog := s.txlog ++ [v] }

/-- The sequencer's read of RXBUF (R88): the current value, no side effect. -/
def State.rxRead (s : State) : Byte := s.rxbuf

/-- `armAndWait(k) then p` (42_sync_primitive.md R90). -/
def State.armAndWait (k : Event) (p : Phase) (s : State) : State :=
  { s with evk := k, ret := p, ph := .aw1 }

/-- TAKING THE INTERRUPT: the handler step keyed by IV (60_exceptions.md R136). It clears the flag of the case it takes
and releases the wait; with no source signaled it changes nothing (R140). Entry saves nothing and changes no mode bit
(R135), and there is no return instruction: the step ends, GIE is as before, and the sequencer goes on at PH (R137). -/
def State.takeInterrupt (s : State) : State :=
  match s.iv with
  | 2 => { s with ifgRxf := false, wait := false }
  | 4 => { s with ifgTxe := false, wait := false }
  | _ => s

/-- The turn of the agent IRQ (R133, R136, R140): the handler is entered only when GIE = 1. An entry with no source
signaled is the spurious one, which the environment may inject at any moment with GIE = 1 (log 24). -/
def irqStep (s : State) : Result :=
  if s.gie then .next s.takeInterrupt else .next s

/-- Draw who moves after this step (20_memory.md R46 and R53, logs 1, 19). -/
def State.advance (s : State) : State :=
  { s with turn := Config.schedule.turn s.tick, tick := s.tick + 1 }

/-- The host presents a legal command and designates a buffer for it (60_exceptions.md R153, log 10). The command goes
on the port as its word; the capacity of the buffer is its length. -/
def State.present (w : Word) (bytes : List Byte) (s : State) : State :=
  { s with port := some w, buf := Memory.ofBytes 0 bytes, bufcap := bytes.length }

end Sys2Proof.Machine
end

