-- ==== Sys2Proof/Machine/Configuration.lean ====
section
/-! DEFINITION. What INIT does to the bus controller (40_configuration.md R70 to R73). -/

namespace Sys2Proof.Machine

/-- The clock source INIT selects for a code (R71): the code if recognized, else the default, silently. -/
def selectClock (p : ClockParams) (clksel : ClkSel) : ClkSel :=
  if p.recognized clksel then clksel else p.default

/-- The step of phase CF_INIT (R70), one atomic step; CTL.MSBF is hardwired. The data path, IE, GIE, WAIT, RES and the
observables are left alone (R76). -/
def State.configure (p : ClockParams) (s : State) : State :=
  let sel := selectClock p s.held.clksel
  { s with
    clksel := sel
    brdiv := p.brdivOf (p.freq sel) s.held.rate
    mst := true
    m3w := true
    ckph := s.held.ckph
    ckpl := s.held.ckpl
    en := true
    ifgTxe := false
    ifgRxf := false
    ph := .idle }

end Sys2Proof.Machine
end

