-- ==== Sys2Proof/Machine/Operands.lean ====
section
/-! DEFINITION. Where the transfer operations take a byte from and where they put one (30_encoding.md R65), and the loop
test (00_scope.md R6). -/

namespace Sys2Proof.Machine

/-- The loop test `IDX < CNT`, unsigned on 16 bits (R6 a). -/
def State.more (s : State) : Bool := s.idx < s.cnt

/-- `IDX <- IDX + 1` (R6 b). -/
def State.nextIdx (s : State) : State := { s with idx := s.idx + 1 }

/-- The byte a send operation sends (43_transfer_send.md R101): ADR for SENDBYTE, `BUF[IDX]` otherwise. -/
def State.sendOperand (s : State) : Except Fault Byte :=
  if s.opc = 3 then .ok s.adr else s.bufRead s.idx

/-- Where a received byte goes (44_transfer_receive.md R112, 45_register_read.md R125): RES when OPC is the byte form
`byteOp` of the family, `BUF[IDX]` otherwise. -/
def State.storeReceived (byteOp : Opcode) (v : Byte) (s : State) : Except Fault State :=
  if s.opc = byteOp then .ok { s with res := v } else s.bufWrite s.idx v

/-- The dummy byte (45_register_read.md R124). -/
def dummyByte : Byte := 0x00

end Sys2Proof.Machine
end

