-- ==== Sys2Proof/Machine/ReceivePhases.lean ====
section
/-! DEFINITION. The phases of RECVBUF and RECVBYTE (44_transfer_receive.md R111, R112). They write nothing to the
transmit register (R114). -/

namespace Sys2Proof.Machine

/-- Phase RB_LOOP (R111): wait for receive-full, or return. -/
def State.rbLoop (s : State) : State :=
  if s.more then s.armAndWait .rxf .rbStore else { s with ph := .idle }

/-- Phase RB_STORE (R112): store RXBUF at the current position (RECVBYTE, opcode 5: in RES) and advance. -/
def rbStore (s : State) : Result :=
  match s.storeReceived 5 s.rxRead with
  | .ok t => .next { t.nextIdx with ph := .rbLoop }
  | .error f => .fault f

end Sys2Proof.Machine
end

