-- ==== Sys2Proof/Machine/RegisterReadPhases.lean ====
section
/-! DEFINITION. The phases of SARECV and SARECVB (45_register_read.md R121 to R126). -/

namespace Sys2Proof.Machine

/-- Phase RR_ADDR (R121): transmit the register address, wait for receive-full. -/
def State.rrAddr (s : State) : State := (s.txWrite s.adr).armAndWait .rxf .rrDisc

/-- Phase RR_DISC (R122): the garbage byte goes nowhere; wait for transmit-empty. -/
def State.rrDisc (s : State) : State := s.armAndWait .txe .rrSet1

/-- Phase RR_SET1 (R123) with `n` for SETTLE_CYCLES. -/
def State.rrSet1 (n : Nat) (s : State) : State := { s with dly := n, ph := .rrDly1 }

/-- Phase RR_DLY1 (R123). -/
def State.rrDly1 (s : State) : State :=
  if s.dly ≠ 0 then { s with dly := s.dly - 1 } else { s with ph := .rrLoop }

/-- Phase RR_LOOP (R124): transmit a dummy byte and wait for receive-full, or return. -/
def State.rrLoop (s : State) : State :=
  if s.more then (s.txWrite dummyByte).armAndWait .rxf .rrStore else { s with ph := .idle }

/-- Phase RR_STORE (R125): store RXBUF at the current position (SARECVB, opcode 7: in RES), wait for transmit-empty. -/
def rrStore (s : State) : Result :=
  match s.storeReceived 7 s.rxRead with
  | .ok t => .next (t.armAndWait .txe .rrSet2)
  | .error f => .fault f

/-- Phase RR_SET2 (R126) with `n` for SETTLE_CYCLES, the same constant as in RR_SET1. -/
def State.rrSet2 (n : Nat) (s : State) : State := { s with dly := n, ph := .rrDly2 }

/-- Phase RR_DLY2 (R126): count down, then advance. -/
def State.rrDly2 (s : State) : State :=
  if s.dly ≠ 0 then { s with dly := s.dly - 1 } else { s.nextIdx with ph := .rrLoop }

end Sys2Proof.Machine
end

