-- ==== Sys2Proof/Machine/SendPhases.lean ====
section
/-! DEFINITION. The phases of SENDBUF and SENDBYTE (43_transfer_send.md R101 to R103). -/

namespace Sys2Proof.Machine

/-- Phase SB_LOOP (R101): write the next byte and wait for transmit-empty, or leave the loop. -/
def sbLoop (s : State) : Result :=
  if s.more then
    match s.sendOperand with
    | .ok v => .next ((s.txWrite v).armAndWait .txe .sbNext)
    | .error f => .fault f
  else .next { s with ph := .sbPoll }

/-- Phase SB_NEXT (R102). -/
def State.sbNext (s : State) : State := { s.nextIdx with ph := .sbLoop }

/-- Phase SB_POLL (R103): poll again while BUSY = 1, else return. -/
def State.sbPoll (s : State) : State := if s.busy then { s with ph := .sbPoll } else { s with ph := .idle }

end Sys2Proof.Machine
end

