-- ==== Sys2Proof/Machine/Sync.lean ====
section
/-! DEFINITION. The steps of `armAndWait` that the sequencer takes (42_sync_primitive.md R91, R92, R93, R95); step 4 is
the handler's (`State.takeInterrupt`). -/

namespace Sys2Proof.Machine

/-- Phase AW1 (R91): delivery off. -/
def State.aw1 (s : State) : State := { s with gie := false, ph := .aw2 }

/-- Phase AW2 (R92): arm the source EVK. -/
def State.aw2 (s : State) : State := { s.setIe s.evk true with ph := .aw3 }

/-- Phase AW3 (R93, 20_memory.md R51): delivery on and wait state entered, in this one step. -/
def State.aw3 (s : State) : State := { s with gie := true, wait := true, ph := .aw5 }

/-- Phase AW5 (R95): disarm the source EVK and continue at RET. -/
def State.aw5 (s : State) : State := { s.setIe s.evk false with ph := s.ret }

end Sys2Proof.Machine
end

