-- ==== Sys2Proof/Machine/Sequencer.lean ====
section
/-! DEFINITION. The agent SEQ: one step per phase (10_state.md R20), none while WAIT = 1 (R21), and how an operation is
issued and continued (30_encoding.md R59). -/

namespace Sys2Proof.Machine

/-- The sequencer's step (R20). While WAIT = 1, or in phase IDLE, it has no step and nothing changes. -/
def seqStep (s : State) : Result :=
  if s.wait then .next s
  else
    match s.ph with
    | .idle => .next s
    | .cfInit => .next (s.configure Config.clock)
    | .aw1 => .next s.aw1
    | .aw2 => .next s.aw2
    | .aw3 => .next s.aw3
    | .aw5 => .next s.aw5
    | .sbLoop => sbLoop s
    | .sbNext => .next s.sbNext
    | .sbPoll => .next s.sbPoll
    | .rbLoop => .next s.rbLoop
    | .rbStore => rbStore s
    | .rrAddr => .next s.rrAddr
    | .rrDisc => .next s.rrDisc
    | .rrSet1 => .next (s.rrSet1 Config.settleCycles)
    | .rrDly1 => .next s.rrDly1
    | .rrLoop => .next s.rrLoop
    | .rrStore => rrStore s
    | .rrSet2 => .next (s.rrSet2 Config.settleCycles)
    | .rrDly2 => .next s.rrDly2

/-- What every issue step writes (R59): `OPC <- W[31:28]`, `IDX <- 0`, `PH <- first`. -/
def State.start (op : Opcode) (first : Phase) (s : State) : State := { s with opc := op, idx := 0, ph := first }

/-- The next step of the operation with opcode `op`, whose issue step gives `issued` (log 11). In phase IDLE it is the
issue step (R59). While the operation is in progress (OPC holds its opcode) it is the sequencer's step of the current
phase. While another operation is in progress the command is not accepted and nothing changes (R59; 93 U11). -/
def operate (op : Opcode) (issued : State) (s : State) : Result :=
  if s.ph = .idle then .next issued
  else if s.opc = op then seqStep s
  else .next s

end Sys2Proof.Machine
end

