-- ==== Sys2Proof/Machine/Init.lean ====
section
/-! DEFINITION. The meaning of INIT (40_configuration.md R70). -/

namespace Sys2Proof.Machine

/-- The issue step of INIT (30_encoding.md R59): the operands are held for CF_INIT. -/
def issueInit (clksel : ClkSel) (rate : Rate) (ckph ckpl : Bool) (s : State) : State :=
  { s.start 1 .cfInit with held := ⟨clksel, rate, ckph, ckpl⟩ }

/-- INIT (R70): issue, then CF_INIT (`State.configure`). -/
def execInit (clksel : ClkSel) (rate : Rate) (ckph ckpl : Bool) (s : State) : Result :=
  operate 1 (issueInit clksel rate ckph ckpl s) s

end Sys2Proof.Machine
end

