-- ==== Sys2Proof/Machine/Receive.lean ====
section
/-! DEFINITION. The meanings of RECVBUF and RECVBYTE (44_transfer_receive.md R110, R113). -/

namespace Sys2Proof.Machine

/-- The issue step of RECVBUF (30_encoding.md R59). -/
def issueRecvbuf (count : Count) (s : State) : State := { s.start 4 .rbLoop with cnt := count }

/-- The issue step of RECVBYTE (30_encoding.md R59). -/
def issueRecvbyte (s : State) : State := { s.start 5 .rbLoop with cnt := 1 }

/-- RECVBUF (R110): issue, then RB_LOOP, `armAndWait(RXF)`, RB_STORE per byte. -/
def execRecvbuf (count : Count) (s : State) : Result := operate 4 (issueRecvbuf count s) s

/-- RECVBYTE (R113): as RECVBUF of one byte, put in RES. -/
def execRecvbyte (s : State) : Result := operate 5 (issueRecvbyte s) s

end Sys2Proof.Machine
end

