-- ==== Sys2Proof/Machine/RegisterRead.lean ====
section
/-! DEFINITION. The meanings of SARECV and SARECVB (45_register_read.md R120, R127). -/

namespace Sys2Proof.Machine

/-- The issue step of SARECV (30_encoding.md R59). -/
def issueSarecv (regaddr : Byte) (count : Count) (s : State) : State :=
  { s.start 6 .rrAddr with cnt := count, adr := regaddr }

/-- The issue step of SARECVB (30_encoding.md R59). -/
def issueSarecvb (regaddr : Byte) (s : State) : State := { s.start 7 .rrAddr with cnt := 1, adr := regaddr }

/-- SARECV (R120): issue, then RR_ADDR, RR_DISC and the first settling delay, then RR_LOOP, RR_STORE and the delay per
byte, with a receive-full and a transmit-empty wait after every transmitted byte. -/
def execSarecv (regaddr : Byte) (count : Count) (s : State) : Result := operate 6 (issueSarecv regaddr count s) s

/-- SARECVB (R127): as SARECV of one byte, put in RES. -/
def execSarecvb (regaddr : Byte) (s : State) : Result := operate 7 (issueSarecvb regaddr s) s

end Sys2Proof.Machine
end

