-- ==== Sys2Proof/Machine/Send.lean ====
section
/-! DEFINITION. The meanings of SENDBUF and SENDBYTE (43_transfer_send.md R100, R104). -/

namespace Sys2Proof.Machine

/-- The issue step of SENDBUF (30_encoding.md R59). -/
def issueSendbuf (count : Count) (s : State) : State := { s.start 2 .sbLoop with cnt := count }

/-- The issue step of SENDBYTE (30_encoding.md R59). -/
def issueSendbyte (byte : Byte) (s : State) : State := { s.start 3 .sbLoop with cnt := 1, adr := byte }

/-- SENDBUF (R100): issue, then SB_LOOP, `armAndWait(TXE)`, SB_NEXT per byte, then SB_POLL. -/
def execSendbuf (count : Count) (s : State) : Result := operate 2 (issueSendbuf count s) s

/-- SENDBYTE (R104): as SENDBUF of one byte, taken from ADR. -/
def execSendbyte (byte : Byte) (s : State) : Result := operate 3 (issueSendbyte byte s) s

end Sys2Proof.Machine
end

