-- ==== Sys2Proof/Machine/Dispatch.lean ====
section
/-! DEFINITION. The next step of an operation: one arm per row of the opcode map (30_encoding.md R58). -/

namespace Sys2Proof.Machine

def exec (i : Instr) (s : State) : Host.Outcome State Fault Refusal :=
  match i with
  | .init clksel rate ckph ckpl => Sys2Proof.Machine.execInit clksel rate ckph ckpl s
  | .sendbuf count => Sys2Proof.Machine.execSendbuf count s
  | .sendbyte byte => Sys2Proof.Machine.execSendbyte byte s
  | .recvbuf count => Sys2Proof.Machine.execRecvbuf count s
  | .recvbyte => Sys2Proof.Machine.execRecvbyte s
  | .sarecv regaddr count => Sys2Proof.Machine.execSarecv regaddr count s
  | .sarecvb regaddr => Sys2Proof.Machine.execSarecvb regaddr s

end Sys2Proof.Machine
end

