-- ==== Sys2Proof/Machine/Shifter.lean ====
section
/-! DEFINITION. The agent SHF: LOAD and COMPLETE (41_bus_controller_shifter.md R81, R82). -/

namespace Sys2Proof.Machine

/-- The guard of LOAD (R81); with EN = 0 the shifter has no step (R85). -/
def State.canLoad (s : State) : Bool := s.en && s.txfull && !s.busy

/-- LOAD (R81): the transmit register's byte moves into the shift register and transmit-empty is raised. -/
def State.load (s : State) : State :=
  { s with shreg := s.txbuf, txfull := false, busy := true, ifgTxe := true }

/-- The guard of COMPLETE (R82). -/
def State.canComplete (s : State) : Bool := s.en && s.busy

/-- COMPLETE with `m` the byte the slave shifted in (R82): receive-full is raised; an unread byte is overwritten. -/
def State.complete (m : Byte) (s : State) : State :=
  { s with wire := s.wire ++ [(s.shreg, m)], rxbuf := m, ifgRxf := true, busy := false }

/-- The turn of the agent SHF: LOAD or COMPLETE, whichever is enabled (never both), else nothing. -/
def shfStep (s : State) : Result :=
  if s.canLoad then .next s.load
  else if s.canComplete then .next (s.complete (Config.slave s.tick s.wire s.shreg))
  else .next s

end Sys2Proof.Machine
end

