-- ==== Sys2Proof/Machine/Agents.lean ====
section
/-! DEFINITION. The agent HOST, and the step of each agent (20_memory.md R46). -/

namespace Sys2Proof.Machine

/-- Accept the presented word (30_encoding.md R59): the port is emptied (log 9) and the operation it spells is issued;
an illegal word is refused (R62). -/
def issueWord (w : Word) (s : State) : Result :=
  match decode w with
  | .ok i => exec i { s with port := none }
  | .error why => .refused (.illegalCommand why)

/-- The turn of the agent HOST (60_exceptions.md R153). When READY = 1 it issues the word on the port, or, with nothing
there, may present a command and a buffer; while an operation runs it has no move (20_memory.md R52). -/
def hostStep (s : State) : Result :=
  match s.ready, s.port with
  | true, some w => issueWord w s
  | true, none =>
    match Config.hostMove s.tick with
    | none => .next s
    | some m => .next (s.present (encode m.command) m.bytes)
  | false, _ => .next s

/-- The step of an agent. An agent with no enabled step changes nothing (log 1). -/
def agentStep (a : Agent) (s : State) : Result :=
  match a with
  | .host => hostStep s
  | .seq => seqStep s
  | .shf => shfStep s
  | .irq => irqStep s

end Sys2Proof.Machine
end

