-- ==== Sys2Proof/Machine/Step.lean ====
section
/-! DEFINITION. One step of the machine (20_memory.md R46), and how the host's check presents a word to it. -/

namespace Sys2Proof.Machine

/-- One step: the agent whose turn it is moves, and who moves next is drawn (log 1). -/
def step (s : State) : Host.Outcome State Fault Refusal := agentStep s.turn s.advance

/-- `s` with the instruction whose bits are `w` on the command port, READY = 1 and the host to move: the very next
`step` issues it (log 9). -/
def State.withFetchWord (s : State) (nbits w : Nat) : State :=
  { s with port := some (tableWord nbits w), ph := .idle, turn := .host }

end Sys2Proof.Machine
end

