-- ==== Sys2Proof/Machine/Serial.lean ====
section
/-! DEFINITION. The bit level of one exchange (41_bus_controller_shifter.md R83, 10_state.md R33): eight clock periods,
most significant bit first in both directions. It explains the byte level, whose rules are the normative ones
(92_eei_decisions.md D26, log 25): no step reads it, and Obligations.BitLevelMatchesByteLevel says that it gives the
same exchange. -/

namespace Sys2Proof.Machine

/-- The bits of a byte in the order they cross the bus: bit 7 first (20_memory.md R44). -/
def Serial.bits (b : Byte) : List Bool :=
  [b.getLsbD 7, b.getLsbD 6, b.getLsbD 5, b.getLsbD 4, b.getLsbD 3, b.getLsbD 2, b.getLsbD 1, b.getLsbD 0]

/-- One clock period: the register's bit 7 goes to data-out and the bit sampled on data-in enters at bit 0. -/
def Serial.clockPeriod (r : Byte) (dataIn : Bool) : Bool × Byte :=
  (r.getLsbD 7, (r.extractLsb' 0 7 ++ BitVec.ofBool dataIn : BitVec 8))

/-- The clock periods of an exchange, one per bit on data-in: the bits put on data-out, and the register after. -/
def Serial.exchange (r : Byte) : List Bool → List Bool × Byte
  | [] => ([], r)
  | x :: xs =>
    let (out, r') := Serial.clockPeriod r x
    let (outs, r'') := Serial.exchange r' xs
    (out :: outs, r'')

end Sys2Proof.Machine
end

