-- ==== Sys2Proof/Safety.lean ====
section
/-! DEFINITION. What counts as a safe run, in the terms the statements use: power-on (70_reset_and_hazards.md R155), the
clean state (R160), rest and hang (60_exceptions.md R154, 42_sync_primitive.md R99), the invariants of the block, and
runs under a given order of agents, weakly fair or not (20_memory.md R46, R53). -/

namespace Sys2Proof.Machine

/-- The state after power-on as the spec gives it (R155): only these fields are fixed, every other is a draw. -/
structure State.powerOn (s : State) : Prop where
  en : s.en = false
  msbf : s.msbf = true
  ieTxe : s.ieTxe = false
  ieRxf : s.ieRxf = false
  busy : s.busy = false
  txfull : s.txfull = false
  ph : s.ph = .idle
  wait : s.wait = false
  txlog : s.txlog = []
  wire : s.wire = []

/-- No source armed, not waiting, nothing queued, nothing in flight, and no operation in progress. -/
structure State.quiet (s : State) : Prop where
  ph : s.ph = .idle
  wait : s.wait = false
  ieTxe : s.ieTxe = false
  ieRxf : s.ieRxf = false
  txfull : s.txfull = false
  busy : s.busy = false

/-- A send may start (43_transfer_send.md R105): enabled, quiet, and no transmit-empty pending. -/
structure State.sendReady (s : State) : Prop extends s.quiet where
  en : s.en = true
  ifgTxe : s.ifgTxe = false

/-- The clean state (R160). -/
structure State.clean (s : State) : Prop extends s.sendReady where
  ifgRxf : s.ifgRxf = false

/-- "Clean except `IFG.RXF = 1`" (R161): the state a send leaves. -/
structure State.afterSend (s : State) : Prop extends s.sendReady where
  ifgRxf : s.ifgRxf = true

/-- A run of a program is over (60_exceptions.md R154). -/
def State.atRest (s : State) : Prop := s.ph = .idle ∧ s.wait = false ∧ s.txfull = false ∧ s.busy = false

/-- The delivery condition (60_exceptions.md R133). -/
def State.deliverable (s : State) : Bool := s.gie && s.irqRequest

/-- A hang (42_sync_primitive.md R99): an operation is in progress, the CPU waits, and neither the shifter nor the
handler has a step. -/
structure State.hung (s : State) : Prop where
  ph : s.ph ≠ .idle
  wait : s.wait = true
  load : s.canLoad = false
  complete : s.canComplete = false
  handler : s.deliverable = false

/-- The phases of `armAndWait`. -/
def Phase.inWait : Phase → Bool
  | .aw1 | .aw2 | .aw3 | .aw5 => true
  | _ => false

/-- The handler has released the current wait and the step of phase AW5 is due. -/
def State.released (s : State) : Bool := s.ph == .aw5 && !s.wait

/-- Where the operation stands: the phase, and during a wait the phase that follows it. -/
def State.stage (s : State) : Phase := bif s.ph.inWait then s.ret else s.ph

/-- The phases at which a wait continues, with the event each waits for (the callers of R90). -/
def Phase.continues (p : Phase) (k : Event) : Bool :=
  match p, k with
  | .sbNext, .txe | .rrSet1, .txe | .rrSet2, .txe => true
  | .rbStore, .rxf | .rrDisc, .rxf | .rrStore, .rxf => true
  | _, _ => false

/-- The arming invariant (10_state.md R26, 42_sync_primitive.md R97): a source is armed only in phases AW3 and AW5, and
then it is EVK's; delivery is off from AW1's step to AW3's and on from AW3's step on; the wait state is held only in
phase AW5; and a wait continues at a phase of its own event. -/
structure State.ArmInv (s : State) : Prop where
  armed : ∀ k, s.ie k = true ↔ k = s.evk ∧ (s.ph = .aw3 ∨ s.ph = .aw5)
  masked : s.ph = .aw2 ∨ s.ph = .aw3 → s.gie = false
  delivering : s.ph = .aw5 → s.gie = true
  waiting : s.wait = true → s.ph = .aw5
  returns : s.ph.inWait = true → s.ret.continues s.evk = true

/-- A byte written has not been accounted for by a transmit-empty wait yet: that wait is not released, or the
transaction is at a receive-full wait before it. -/
def State.bytePending (s : State) : Bool :=
  (s.ph.inWait && s.evk == .txe && !s.released) || s.stage == .rrDisc || s.stage == .rrStore

/-- What is queued and pending at each point of an operation that started with no transmit-empty pending and nothing
queued: a byte not accounted for is either still in TXBUF or has raised IFG.TXE, and otherwise there is neither; and
before the release of a receive-full wait of the register-read transaction there is always something that has raised
IFG.RXF or will. -/
structure State.ExchangeInv (s : State) : Prop extends s.ArmInv where
  pending : s.bytePending = true → s.txfull = !s.ifgTxe
  clear : s.bytePending = false → s.txfull = false ∧ s.ifgTxe = false
  coming : s.ph.inWait = true → s.ret = .rrDisc ∨ s.ret = .rrStore → s.released = false →
    s.txfull = true ∨ s.busy = true ∨ s.ifgRxf = true

/-- The stages that are reached only with a byte of the operation still to come (00_scope.md R6 b). -/
def Phase.insideLoop : Phase → Bool
  | .sbNext | .rbStore | .rrStore | .rrSet2 | .rrDly2 => true
  | _ => false

/-- The loop position (10_state.md R19): `0 <= IDX <= CNT`, and below CNT inside the loop. -/
structure State.IdxInv (s : State) : Prop where
  le : s.ph ≠ .idle → s.idx ≤ s.cnt
  lt : s.stage.insideLoop = true → s.idx < s.cnt

/-- The bytes written and not yet exchanged: the one in flight, then the one queued. -/
def State.inFlight (s : State) : List Byte :=
  (bif s.busy then [s.shreg] else []) ++ (bif s.txfull then [s.txbuf] else [])

/-- Every byte written is exchanged, in order, or still in flight (41_bus_controller_shifter.md R89). -/
def State.LogInv (s : State) : Prop := s.txlog = s.wire.map Prod.fst ++ s.inFlight

/-- RXBUF holds the last byte completely shifted in (10_state.md R17), once there has been one. -/
def State.RxInv (s : State) : Prop := ∀ x, s.wire.getLast? = some x → s.rxbuf = x.2

/-- The step of the agent `a`, whoever's turn it is. -/
def act (a : Agent) (s : State) : Result := agentStep a s.advance

/-- A run in which the agents move in the given order, stopping at the first fault or refusal. `step` is the run of the
one agent whose turn it is; a statement over all orders holds for every interleaving (20_memory.md R46). -/
def runAgents : List Agent → State → Result
  | [], s => .next s
  | a :: order, s =>
    match act a s with
    | .next t => runAgents order t
    | .fault f => .fault f
    | .refused r => .refused r

/-- The agent has an enabled step (20_memory.md R46). A poll of SB_POLL is one, the spurious entry of the handler and a
move of the host before it presents a command are not. -/
def State.enabled (s : State) (a : Agent) : Bool :=
  match a with
  | .host => s.ready && s.port.isSome
  | .seq => !s.wait && !s.ready
  | .shf => s.canLoad || s.canComplete
  | .irq => s.deliverable

/-- The first `n` steps of the run in which agent `order k` moves at step `k`. -/
def runFor : Nat → (Nat → Agent) → State → Result
  | 0, _, s => .next s
  | n + 1, order, s =>
    match act (order 0) s with
    | .next t => runFor n (fun k => order (k + 1)) t
    | .fault f => .fault f
    | .refused r => .refused r

/-- Weak fairness of the run from `s` under `order` (20_memory.md R53, 92_eei_decisions.md D4): a step of SEQ, SHF or
IRQ that stays enabled from some moment on is taken. -/
def WeaklyFair (order : Nat → Agent) (s : State) : Prop :=
  ∀ a, a ≠ .host → ∀ n, (∀ m, n ≤ m → ∃ t, runFor m order s = .next t ∧ t.enabled a = true) → ∃ m, n ≤ m ∧ order m = a

/-- The run gets to a state of which `P` holds. -/
def Eventually (order : Nat → Agent) (P : State → Prop) (s : State) : Prop :=
  ∃ n t, runFor n order s = .next t ∧ P t

/-- The run ends in a fault or a refusal. -/
def Stops (order : Nat → Agent) (s : State) : Prop := ∃ n, ∀ t, runFor n order s ≠ .next t

/-- The machine's own run: `n` times `step`. -/
def runSteps : Nat → State → Result
  | 0, s => .next s
  | n + 1, s =>
    match step s with
    | .next t => runSteps n t
    | .fault f => .fault f
    | .refused r => .refused r

/-- The order of the machine's own run from `s`: the agent whose turn it is, then the drawn ones. -/
def State.order (s : State) : Nat → Agent
  | 0 => s.turn
  | n + 1 => Config.schedule.turn (s.tick + n)

/-- `t` is reached from `s` by steps of SEQ, SHF and IRQ in some order: the host makes no move, as when an operation
runs, or waits for the block to come to rest. -/
def Reaches (s t : State) : Prop := ∃ order : List Agent, Agent.host ∉ order ∧ runAgents order s = .next t

/-- An operation in state `s` returns in state `t`: `t` is an idle state the run reaches (30_encoding.md R60). -/
def ReturnsIn (s t : State) : Prop := Reaches s t ∧ t.ph = .idle

/-- `s'` is `s` with the operation `i` just issued (30_encoding.md R59). -/
def Issued (i : Instr) (s s' : State) : Prop := s.ph = .idle ∧ exec i s = .next s'

/-- The two states differ at most in the settings that no byte-level rule reads: CTL but for EN and MSBF, and BRDIV
(10_state.md R12, 41_bus_controller_shifter.md R84). -/
def State.sameButSettings (s s' : State) : Prop :=
  s' = { s with mst := s'.mst, m3w := s'.m3w, ckph := s'.ckph, ckpl := s'.ckpl, clksel := s'.clksel, brdiv := s'.brdiv }

/-- The bytes shifted in by the exchanges of `t` beyond those of `s`, oldest first. -/
def newBytesIn (s t : State) : List Byte := (t.wire.drop s.wire.length).map Prod.snd

/-- The bytes of the buffer at indices 0 to `n - 1`. -/
def State.bufBytes (s : State) (n : Nat) : List Byte := (List.range n).map (fun i => Memory.read s.buf i)

end Sys2Proof.Machine
end

