-- ==== Sys2Proof/Certificates/Slice0/Obligations.lean ====
section
/-! DEFINITION. The statements for the provers. Each docstring names the rule of the spec it formalises; a clause that
rests on a convention of the model names its log entry. "In every state" includes states no run reaches; where a rule
needs more, the premise is an invariant of Safety.lean whose own statement stands here too. -/

open Sys2Proof Sys2Proof.Machine

/-! ## Encoding -/

/-- One word per operation, written out from the formats of R56 and the opcode map of R58. -/
def Obligations.SpecWordsDecode : Prop :=
  decode 0x140F4240 = .ok (.init 1 1000000 false false) ∧
  decode 0x1AFFFFFF = .ok (.init 2 16777215 true false) ∧
  decode 0x20000004 = .ok (.sendbuf 4) ∧
  decode 0x300000AA = .ok (.sendbyte 0xAA) ∧
  decode 0x40000002 = .ok (.recvbuf 2) ∧
  decode 0x50000000 = .ok .recvbyte ∧
  decode 0x60000305 = .ok (.sarecv 0x05 3) ∧
  decode 0x7000000F = .ok (.sarecvb 0x0F)

/-- R56 to R58: no bit of an operation's word is dropped, for every operand the encoding admits. -/
def Obligations.DecodeEncodeRoundTrip : Prop :=
  ∀ i : Instr, i.wf = true → decode (encode i) = .ok i

/-- R56 to R58: a word that is read as an operation is that operation's only word. -/
def Obligations.EncodeDecodeRoundTrip : Prop :=
  ∀ (w : Word) (i : Instr), decode w = .ok i → encode i = w

/-- R58, R61, R62: the decoder accepts exactly the words that select a row of the opcode map. -/
def Obligations.DecoderAcceptsExactlyLegalWords : Prop :=
  ∀ w : Word, legalWord w = true ↔ ∃ i : Instr, decode w = .ok i

/-! ## Issue -/

/-- R62: an illegal word presented to the idle block is refused, whatever else the state holds. -/
def Obligations.IllegalWordIsRefused : Prop :=
  ∀ (s : State) (w : Word), s.turn = .host → s.ph = .idle → s.port = some w → legalWord w = false →
    ∃ why, step s = .refused (.illegalCommand why)

/-- R59: what the issue step of each operation latches, and that nothing else changes. -/
def Obligations.IssueLatchesOperands : Prop :=
  ∀ s : State, s.ph = .idle →
    (∀ clksel rate ckph ckpl, exec (.init clksel rate ckph ckpl) s =
      .next { s with opc := 1, idx := 0, held := ⟨clksel, rate, ckph, ckpl⟩, ph := .cfInit }) ∧
    (∀ count, exec (.sendbuf count) s = .next { s with opc := 2, idx := 0, cnt := count, ph := .sbLoop }) ∧
    (∀ byte, exec (.sendbyte byte) s = .next { s with opc := 3, idx := 0, cnt := 1, adr := byte, ph := .sbLoop }) ∧
    (∀ count, exec (.recvbuf count) s = .next { s with opc := 4, idx := 0, cnt := count, ph := .rbLoop }) ∧
    exec .recvbyte s = .next { s with opc := 5, idx := 0, cnt := 1, ph := .rbLoop } ∧
    (∀ regaddr count, exec (.sarecv regaddr count) s =
      .next { s with opc := 6, idx := 0, cnt := count, adr := regaddr, ph := .rrAddr }) ∧
    (∀ regaddr, exec (.sarecvb regaddr) s =
      .next { s with opc := 7, idx := 0, cnt := 1, adr := regaddr, ph := .rrAddr })

/-- A step runs the decoded instruction. At the host's turn the idle block issues the word on the port, which is then
empty (log 9); at the sequencer's turn the operation in progress takes its next step. Around `exec` the step only
draws who moves next (`State.advance`, log 1). -/
def Obligations.StepRunsDecodedInstruction : Prop :=
  (∀ (s : State) (w : Word) (i : Instr), s.turn = .host → s.ph = .idle → s.port = some w → decode w = .ok i →
    i.wf = true → step s = exec i { s.advance with port := none }) ∧
  (∀ (s : State) (i : Instr), s.turn = .seq → s.ph ≠ .idle → s.opc = i.opcode → step s = exec i s.advance)

/-- R59, R52: while an operation runs no command is accepted and the host has no move; a command other than the one in
progress changes nothing (log 11). -/
def Obligations.RunningOperationBlocksHost : Prop :=
  ∀ s : State, s.ph ≠ .idle →
    (s.turn = .host → step s = .next s.advance) ∧ (∀ i : Instr, s.opc ≠ i.opcode → exec i s = .next s)

/-! ## INIT -/

/-- R70, R71, and R59 for OPC, IDX and the held operands: INIT is an issue step and one CF_INIT step, and this is all
it changes; the source selected is a recognized one whatever code is given (`Config.clkRecognized`,
`Config.clkDefault`: left open by the model, log 3). That the held operands keep their values after CF_INIT is the
model's choice (log 15). -/
def Obligations.InitConfiguresController : Prop :=
  ∀ (s : State) (clksel : ClkSel) (rate : Rate) (ckph ckpl : Bool), s.ph = .idle → s.wait = false →
    ∃ s1, exec (.init clksel rate ckph ckpl) s = .next s1 ∧
      exec (.init clksel rate ckph ckpl) s1 = .next { s with
        opc := 1, idx := 0, held := ⟨clksel, rate, ckph, ckpl⟩,
        clksel := if Config.clkRecognized clksel then clksel else Config.clkDefault,
        brdiv := Config.brdivOf
          (Config.clkFreq (if Config.clkRecognized clksel then clksel else Config.clkDefault)) rate,
        mst := true, m3w := true, ckph := ckph, ckpl := ckpl, en := true, ifgTxe := false, ifgRxf := false,
        ph := .idle } ∧
      Config.clkRecognized (if Config.clkRecognized clksel then clksel else Config.clkDefault) = true

/-- R74 (the spec's own inference from R70 and R72): a second INIT with the same arguments changes nothing. -/
def Obligations.InitIsIdempotent : Prop :=
  ∀ (s s1 s2 s3 s4 : State) (clksel : ClkSel) (rate : Rate) (ckph ckpl : Bool), s.ph = .idle → s.wait = false →
    exec (.init clksel rate ckph ckpl) s = .next s1 → exec (.init clksel rate ckph ckpl) s1 = .next s2 →
    exec (.init clksel rate ckph ckpl) s2 = .next s3 → exec (.init clksel rate ckph ckpl) s3 = .next s4 → s4 = s2

/-- R160 (the spec's own inference): INIT issued in an idle state with nothing queued, in flight or armed ends in a
clean state. -/
def Obligations.InitEndsClean : Prop :=
  ∀ (s : State) (clksel : ClkSel) (rate : Rate) (ckph ckpl : Bool), s.quiet →
    ∃ s1 t, exec (.init clksel rate ckph ckpl) s = .next s1 ∧ exec (.init clksel rate ckph ckpl) s1 = .next t ∧ t.clean

/-- R76: INIT leaves the data path alone; an exchange in flight then completes and raises receive-full, and a byte
queued before the controller was enabled is then loaded. -/
def Obligations.InitLeavesDataPath : Prop :=
  ∀ (s t : State) (clksel : ClkSel) (rate : Rate) (ckph ckpl : Bool), s.ph = .cfInit → s.wait = false → s.opc = 1 →
    exec (.init clksel rate ckph ckpl) s = .next t →
    t.txbuf = s.txbuf ∧ t.txfull = s.txfull ∧ t.shreg = s.shreg ∧ t.rxbuf = s.rxbuf ∧ t.busy = s.busy ∧
    (s.busy = true → ∃ u, act .shf t = .next u ∧ u.ifgRxf = true ∧ u.busy = false) ∧
    (s.busy = false → s.txfull = true → ∃ u, act .shf t = .next u ∧ u.shreg = s.txbuf ∧ u.busy = true)

/-! ## The shifter -/

/-- R81: LOAD, its guard and all it changes. -/
def Obligations.ShifterLoadsByte : Prop :=
  ∀ s : State, s.turn = .shf → s.en = true → s.txfull = true → s.busy = false →
    step s = .next { s.advance with shreg := s.txbuf, txfull := false, busy := true, ifgTxe := true }

/-- R82: COMPLETE, its guard and all it changes, for the byte `m` the slave answers. -/
def Obligations.ShifterCompletesExchange : Prop :=
  ∀ s : State, s.turn = .shf → s.en = true → s.busy = true →
    ∃ m : Byte, step s = .next { s.advance with
      wire := s.wire ++ [(s.shreg, m)], rxbuf := m, ifgRxf := true, busy := false }

/-- R85, R89 (the latter the spec's own inference): a disabled shifter, or one with nothing queued and nothing in
flight, does nothing. -/
def Obligations.ShifterIdlesWithoutWork : Prop :=
  ∀ s : State, s.turn = .shf → (s.en = false ∨ (s.txfull = false ∧ s.busy = false)) → step s = .next s.advance

/-- R83 (for the incoming byte the spec's own inference; log 25): COMPLETE does what eight clock periods do. The bits
sampled on data-in, most significant first, are those of the byte COMPLETE puts in RXBUF; shifting them into SHREG
puts SHREG's bits on data-out, most significant first, and leaves that byte; and the pair COMPLETE appends to WIRE is
that byte out and that byte in. -/
def Obligations.BitLevelMatchesByteLevel : Prop :=
  (∀ s : State, s.en = true → s.busy = true →
    ∃ (t : State) (sampled : List Bool), act .shf s = .next t ∧ sampled.length = 8 ∧
      (∀ k : Fin 8, sampled[k.val]? = some (t.rxbuf.getLsbD (7 - k.val))) ∧
      (∀ k : Fin 8, (Serial.exchange s.shreg sampled).1[k.val]? = some (s.shreg.getLsbD (7 - k.val))) ∧
      (Serial.exchange s.shreg sampled).1.length = 8 ∧
      t.wire = s.wire ++ [(s.shreg, (Serial.exchange s.shreg sampled).2)] ∧
      t.rxbuf = (Serial.exchange s.shreg sampled).2) ∧
  (∀ out m : Byte, Serial.exchange out (Serial.bits m) = (Serial.bits out, m) ∧ (Serial.bits m).length = 8 ∧
    ∀ k : Fin 8, (Serial.bits m)[k.val]? = some (m.getLsbD (7 - k.val)))

/-! ## The synchronization primitive and the handler -/

/-- R91, R92, R93, R95: the four sequencer steps of `armAndWait`, for every operation in progress. In every state the
arming invariant admits (R26 and the closing passage of R95, the spec's own inferences): before the arming step
neither bit is armed and delivery is off; the handler is enabled at once after the wait entry if the flag was already
1; after the disarming step nothing is armed and delivery is on. After the wait entry the sequencer has no step (R94),
which is a next step that changes nothing (log 12). -/
def Obligations.ArmAndWaitSteps : Prop :=
  ∀ (s : State) (i : Instr), s.opc = i.opcode → s.wait = false →
    (s.ph = .aw1 → exec i s = .next { s with gie := false, ph := .aw2 }) ∧
    (s.ph = .aw2 → s.evk = .txe → exec i s = .next { s with ieTxe := true, ph := .aw3 }) ∧
    (s.ph = .aw2 → s.evk = .rxf → exec i s = .next { s with ieRxf := true, ph := .aw3 }) ∧
    (s.ph = .aw2 → s.ArmInv → s.ieTxe = false ∧ s.ieRxf = false ∧ s.deliverable = false) ∧
    (s.ph = .aw3 → exec i s = .next { s with gie := true, wait := true, ph := .aw5 }) ∧
    (s.ph = .aw3 → ∃ t, exec i s = .next t ∧ exec i t = .next t ∧
      (s.ArmInv → s.ifg s.evk = true → t.deliverable = true)) ∧
    (s.ph = .aw5 → s.evk = .txe → exec i s = .next { s with ieTxe := false, ph := s.ret }) ∧
    (s.ph = .aw5 → s.evk = .rxf → exec i s = .next { s with ieRxf := false, ph := s.ret }) ∧
    (s.ph = .aw5 → s.ArmInv →
      ∃ t, exec i s = .next t ∧ t.ieTxe = false ∧ t.ieRxf = false ∧ t.gie = true ∧ t.ph = s.ret)

/-- R94: while WAIT = 1 the sequencer has no step, and only the handler taking the case of a signaled source ends the
wait, leaving PH where it was. -/
def Obligations.OnlyHandlerEndsWait : Prop :=
  ∀ s t : State, s.wait = true → step s = .next t →
    (s.turn = .seq → t = s.advance) ∧
    (t.wait = false → s.turn = .irq ∧ s.gie = true ∧ t.ph = s.ph ∧
      ∃ k, s.signaled k = true ∧ t.ifg k = false)

/-- R18, R136, R137, R140: the handler's three cases by the flags and enables, receive-full first (log 17); it is
entered only with delivery on; entry and return change nothing else, GIE included. -/
def Obligations.HandlerTakesItsCase : Prop :=
  ∀ s : State, s.turn = .irq →
    (s.gie = true → s.ifgRxf = true → s.ieRxf = true →
      step s = .next { s.advance with ifgRxf := false, wait := false }) ∧
    (s.gie = true → (s.ifgRxf = false ∨ s.ieRxf = false) → s.ifgTxe = true → s.ieTxe = true →
      step s = .next { s.advance with ifgTxe := false, wait := false }) ∧
    (s.gie = true → (s.ifgRxf = false ∨ s.ieRxf = false) → (s.ifgTxe = false ∨ s.ieTxe = false) →
      step s = .next s.advance) ∧
    (s.gie = false → step s = .next s.advance)

/-- R98, R97 (the latter the spec's own inference): a pending flag of the source being waited for, once armed, is not
lost: every step keeps it pending and the wait going on, until the handler consumes it and releases the wait; during
the wait the handler is enabled; and under the weak fairness of R53 the wait is released, by the consumption of that
flag. -/
def Obligations.NoLostWakeup : Prop :=
  (∀ s t : State, s.ArmInv → (s.ph = .aw3 ∨ (s.ph = .aw5 ∧ s.wait = true)) → s.ifg s.evk = true → step s = .next t →
    (s.wait = true → s.deliverable = true) ∧
    ((t.ifg t.evk = true ∧ t.evk = s.evk ∧ (t.ph = .aw3 ∨ (t.ph = .aw5 ∧ t.wait = true))) ∨
      (s.turn = .irq ∧ s.wait = true ∧ t.wait = false ∧ t.ph = .aw5 ∧ t.ifg s.evk = false))) ∧
  (∀ (s : State) (order : Nat → Agent), s.ArmInv → (s.ph = .aw3 ∨ (s.ph = .aw5 ∧ s.wait = true)) → s.ifg s.evk = true →
    WeaklyFair order s → Eventually order (fun t => t.released = true ∧ t.evk = s.evk ∧ t.ifg s.evk = false) s)

/-- R96 (the spec's own inference): a wait is released only by the handler taking the case of the awaited source,
which was armed and pending; and the primitive returns (leaves phase AW5) only when released. -/
def Obligations.NoSpuriousReturn : Prop :=
  ∀ s t : State, s.ArmInv → step s = .next t →
    (s.ph.inWait = true → s.released = false → t.released = true →
      s.turn = .irq ∧ s.ie s.evk = true ∧ s.ifg s.evk = true ∧ t.ifg s.evk = false) ∧
    (s.ph = .aw5 → t.ph ≠ .aw5 → s.released = true)

/-- R26, R97 (the spec's own inferences): every step keeps the arming invariant. -/
def Obligations.ArmingInvariantKept : Prop :=
  ∀ s t : State, s.ArmInv → step s = .next t → t.ArmInv

/-- R26 (the spec's own inference), R155: the arming invariant holds after power-on, whatever the draws. -/
def Obligations.ArmingInvariantAtPowerOn : Prop :=
  ∀ s : State, s.powerOn → s.ArmInv

/-- R26, R97 (the spec's own inferences): what the arming invariant says: never both sources armed, at most one
signaled, and exactly the awaited one armed while the wait state is held. -/
def Obligations.ExactlyAwaitedSourceArmed : Prop :=
  ∀ s : State, s.ArmInv →
    ¬(s.ieTxe = true ∧ s.ieRxf = true) ∧ ¬(s.signaled .txe = true ∧ s.signaled .rxf = true) ∧
    (s.wait = true → ∀ k, s.ie k = true ↔ k = s.evk)

/-! ## SENDBUF and SENDBYTE -/

/-- R101: the loop head writes the next byte (ADR for SENDBYTE, BUF[IDX] for SENDBUF) and calls `armAndWait(TXE)`, or
leaves the loop. -/
def Obligations.SendLoopWritesNextByte : Prop :=
  ∀ s : State, s.ph = .sbLoop → s.wait = false →
    (∀ byte, s.opc = 3 → s.idx < s.cnt → exec (.sendbyte byte) s = .next { s with
      txbuf := s.adr, txfull := true, txlog := s.txlog ++ [s.adr], evk := .txe, ret := .sbNext, ph := .aw1 }) ∧
    (∀ count, s.opc = 2 → s.idx < s.cnt → s.idx.toNat < s.bufcap → exec (.sendbuf count) s = .next { s with
      txbuf := Memory.read s.buf s.idx.toNat, txfull := true,
      txlog := s.txlog ++ [Memory.read s.buf s.idx.toNat], evk := .txe, ret := .sbNext, ph := .aw1 }) ∧
    (∀ byte, s.opc = 3 → s.cnt ≤ s.idx → exec (.sendbyte byte) s = .next { s with ph := .sbPoll }) ∧
    (∀ count, s.opc = 2 → s.cnt ≤ s.idx → exec (.sendbuf count) s = .next { s with ph := .sbPoll })

/-- R102, R103: advance the loop position; poll BUSY, staying while it is 1 and returning when it is 0. -/
def Obligations.SendAdvancesAndPolls : Prop :=
  ∀ (s : State) (i : Instr), (s.opc = 2 ∧ ∃ count, i = .sendbuf count) ∨ (s.opc = 3 ∧ ∃ byte, i = .sendbyte byte) →
    s.wait = false →
    (s.ph = .sbNext → exec i s = .next { s with idx := s.idx + 1, ph := .sbLoop }) ∧
    (s.ph = .sbPoll → s.busy = true → exec i s = .next s) ∧
    (s.ph = .sbPoll → s.busy = false → exec i s = .next { s with ph := .idle })

/-- R107, R116 (the spec's own inferences): SENDBUF 0 is the issue step, one SB_LOOP step and the poll, which returns
once BUSY = 0; RECVBUF 0 is the issue step and one RB_LOOP step. Neither changes a register of the bus controller, the
buffer or the observables. -/
def Obligations.LengthZeroReturnsAtOnce : Prop :=
  ∀ s : State, s.ph = .idle → s.wait = false →
    (∃ s1 s2, exec (.sendbuf 0) s = .next s1 ∧ exec (.sendbuf 0) s1 = .next s2 ∧
      (s.busy = true → exec (.sendbuf 0) s2 = .next s2) ∧
      (s.busy = false → exec (.sendbuf 0) s2 = .next { s with opc := 2, cnt := 0, idx := 0, ph := .idle })) ∧
    (∃ s1, exec (.recvbuf 0) s = .next s1 ∧
      exec (.recvbuf 0) s1 = .next { s with opc := 4, cnt := 0, idx := 0, ph := .idle })

/-- R105 (the spec's own inference): whatever the interleaving, when SENDBUF returns it has written the buffer to the
transmit register in order, and every byte has been exchanged on the wire in that order; the buffer is unchanged. -/
def Obligations.SendBufferTransmitsInOrder : Prop :=
  ∀ (s s1 t : State) (count : Count), s.sendReady → Issued (.sendbuf count) s s1 → ReturnsIn s1 t →
    t.txlog = s.txlog ++ s.bufBytes count.toNat ∧
    (∃ bytesIn : List Byte, bytesIn.length = count.toNat ∧
      t.wire = s.wire ++ (s.bufBytes count.toNat).zip bytesIn) ∧
    t.buf = s.buf

/-- R106 (the spec's own inference): the state a send of at least one byte leaves when it started in a clean state. -/
def Obligations.SendLeavesReceiveFullPending : Prop :=
  ∀ (s s1 t : State) (i : Instr), s.clean → (∃ byte, i = .sendbyte byte) ∨ (∃ count, i = .sendbuf count ∧ 1 ≤ count) →
    Issued i s s1 → ReturnsIn s1 t →
    t.ieTxe = false ∧ t.ieRxf = false ∧ t.gie = true ∧ t.wait = false ∧ t.ifgTxe = false ∧ t.txfull = false ∧
    t.busy = false ∧ t.idx = t.cnt ∧ (∃ x, t.wire.getLast? = some x ∧ t.rxbuf = x.2) ∧ t.ifgRxf = true

/-- R65, R104: SENDBYTE b and SENDBUF 1 with BUF[0] = b go through the same states, in every interleaving, but for the
opcode latch and ADR. -/
def Obligations.SendByteMatchesSendBufferOfOne : Prop :=
  ∀ (s s1 s2 : State) (b : Byte), 0 < s.bufcap → Memory.read s.buf 0 = b →
    Issued (.sendbyte b) s s1 → Issued (.sendbuf 1) s s2 →
    ∀ (order : List Agent) (t : State), .host ∉ order → runAgents order s1 = .next t →
      runAgents order s2 = .next { t with opc := 2, adr := s.adr }

/-! ## RECVBUF and RECVBYTE -/

/-- R111: the loop head calls `armAndWait(RXF)` or returns. -/
def Obligations.ReceiveLoopWaitsOrReturns : Prop :=
  ∀ (s : State) (i : Instr), (s.opc = 4 ∧ ∃ count, i = .recvbuf count) ∨ (s.opc = 5 ∧ i = .recvbyte) →
    s.ph = .rbLoop → s.wait = false →
    (s.idx < s.cnt → exec i s = .next { s with evk := .rxf, ret := .rbStore, ph := .aw1 }) ∧
    (s.cnt ≤ s.idx → exec i s = .next { s with ph := .idle })

/-- R112: the store step puts RXBUF in RES (RECVBYTE) or at BUF[IDX] (RECVBUF), and advances. -/
def Obligations.ReceiveStoresAtLoopPosition : Prop :=
  ∀ s : State, s.ph = .rbStore → s.wait = false →
    (s.opc = 5 → exec .recvbyte s = .next { s with res := s.rxbuf, idx := s.idx + 1, ph := .rbLoop }) ∧
    (∀ count, s.opc = 4 → s.idx.toNat < s.bufcap → exec (.recvbuf count) s = .next { s with
      buf := Memory.write s.buf s.idx.toNat s.rxbuf, idx := s.idx + 1, ph := .rbLoop })

/-- R114 (the spec's own inference): a receive of at least one byte issued in a clean state never returns: it starts
no exchange, stores nothing, can reach its hang, and gets there in every run that is weakly fair (R53). -/
def Obligations.ReceiveHangsFromClean : Prop :=
  ∀ (s s1 : State) (i : Instr), s.clean → i = .recvbyte ∨ (∃ count, i = .recvbuf count ∧ 1 ≤ count) → Issued i s s1 →
    (∀ t, Reaches s1 t → t.ph ≠ .idle ∧ t.txlog = s.txlog ∧ t.wire = s.wire ∧ t.buf = s.buf ∧ t.res = s.res) ∧
    (∃ t, Reaches s1 t ∧ t.hung ∧ t.ieRxf = true ∧ t.gie = true ∧ t.idx = 0) ∧
    (∀ order, WeaklyFair order s1 → Eventually order State.hung s1)

/-- R115 (the spec's own inference): after a send, RECVBYTE returns the byte shifted in with the last byte sent and
leaves a clean state; RECVBUF 1 stores it at BUF[0]; both return in every weakly fair run (R53); RECVBUF of two or
more stores it there and hangs in its second wait. -/
def Obligations.ReceiveAfterSendTakesStaleByte : Prop :=
  ∀ s : State, s.afterSend → Memory.wf s.buf = true → 0 < s.bufcap →
    (∀ s1, Issued .recvbyte s s1 → (∃ t, ReturnsIn s1 t) ∧
      (∀ order, WeaklyFair order s1 → Eventually order (fun t => t.ph = .idle) s1) ∧
      ∀ t, ReturnsIn s1 t → t.res = s.rxbuf ∧ t.clean ∧ t.txlog = s.txlog ∧ t.wire = s.wire ∧ t.buf = s.buf) ∧
    (∀ s1, Issued (.recvbuf 1) s s1 → (∃ t, ReturnsIn s1 t) ∧
      (∀ order, WeaklyFair order s1 → Eventually order (fun t => t.ph = .idle) s1) ∧
      ∀ t, ReturnsIn s1 t → Memory.read t.buf 0 = s.rxbuf ∧ t.clean) ∧
    (∀ count s1, 2 ≤ count → Issued (.recvbuf count) s s1 → (∀ t, Reaches s1 t → t.ph ≠ .idle) ∧
      ∃ t, Reaches s1 t ∧ t.hung ∧ t.idx = 1 ∧ Memory.read t.buf 0 = s.rxbuf)

/-! ## SARECV and SARECVB -/

/-- R121, R122: the address byte is transmitted before a receive-full wait; the garbage byte is discarded before a
transmit-empty wait. -/
def Obligations.RegisterReadSendsAddressAndDiscards : Prop :=
  ∀ (s : State) (i : Instr), (s.opc = 6 ∧ ∃ regaddr count, i = .sarecv regaddr count) ∨
      (s.opc = 7 ∧ ∃ regaddr, i = .sarecvb regaddr) → s.wait = false →
    (s.ph = .rrAddr → exec i s = .next { s with
      txbuf := s.adr, txfull := true, txlog := s.txlog ++ [s.adr], evk := .rxf, ret := .rrDisc, ph := .aw1 }) ∧
    (s.ph = .rrDisc → exec i s = .next { s with evk := .txe, ret := .rrSet1, ph := .aw1 })

/-- R123, R126: the settling delays load SETTLE_CYCLES, count it down one per step, and continue; the second then
advances the loop position. -/
def Obligations.RegisterReadHoldsSettlingDelay : Prop :=
  ∀ (s : State) (i : Instr), (s.opc = 6 ∧ ∃ regaddr count, i = .sarecv regaddr count) ∨
      (s.opc = 7 ∧ ∃ regaddr, i = .sarecvb regaddr) → s.wait = false →
    (s.ph = .rrSet1 → exec i s = .next { s with dly := Config.settleCycles, ph := .rrDly1 }) ∧
    (s.ph = .rrDly1 → s.dly ≠ 0 → exec i s = .next { s with dly := s.dly - 1 }) ∧
    (s.ph = .rrDly1 → s.dly = 0 → exec i s = .next { s with ph := .rrLoop }) ∧
    (s.ph = .rrSet2 → exec i s = .next { s with dly := Config.settleCycles, ph := .rrDly2 }) ∧
    (s.ph = .rrDly2 → s.dly ≠ 0 → exec i s = .next { s with dly := s.dly - 1 }) ∧
    (s.ph = .rrDly2 → s.dly = 0 → exec i s = .next { s with idx := s.idx + 1, ph := .rrLoop })

/-- R123: the first settling delay is SETTLE_CYCLES + 2 sequencer steps in all and changes nothing but DLY and PH (and
the model's own choice of who moves next, log 1). -/
def Obligations.SettlingDelayTakesItsSteps : Prop :=
  ∀ s : State, s.ph = .rrSet1 → s.wait = false →
    ∃ turn tick, runAgents (List.replicate (Config.settleCycles + 2) .seq) s =
      .next { s with dly := 0, ph := .rrLoop, turn := turn, tick := tick }

/-- R124, R125: the data loop transmits the dummy byte 0x00 before a receive-full wait, or returns; the store step
puts RXBUF in RES (SARECVB) or at BUF[IDX] (SARECV) before a transmit-empty wait. -/
def Obligations.RegisterReadClocksAndStores : Prop :=
  ∀ (s : State) (i : Instr), (s.opc = 6 ∧ ∃ regaddr count, i = .sarecv regaddr count) ∨
      (s.opc = 7 ∧ ∃ regaddr, i = .sarecvb regaddr) → s.wait = false →
    (s.ph = .rrLoop → s.idx < s.cnt → exec i s = .next { s with
      txbuf := 0, txfull := true, txlog := s.txlog ++ [0], evk := .rxf, ret := .rrStore, ph := .aw1 }) ∧
    (s.ph = .rrLoop → s.cnt ≤ s.idx → exec i s = .next { s with ph := .idle }) ∧
    (s.ph = .rrStore → s.opc = 7 → exec i s = .next { s with
      res := s.rxbuf, evk := .txe, ret := .rrSet2, ph := .aw1 }) ∧
    (s.ph = .rrStore → s.opc = 6 → s.idx.toNat < s.bufcap → exec i s = .next { s with
      buf := Memory.write s.buf s.idx.toNat s.rxbuf, evk := .txe, ret := .rrSet2, ph := .aw1 })

/-- R128 (the spec's own inference): from a clean state, in every interleaving, when SARECV returns it has transmitted
the address and `count` dummy bytes, discarded the one garbage byte, stored the others at 0 to `count - 1` in order,
and left a clean state. -/
def Obligations.RegisterReadFromClean : Prop :=
  ∀ (s s1 t : State) (regaddr : Byte) (count : Count), s.clean → Memory.wf s.buf = true →
    Issued (.sarecv regaddr count) s s1 → ReturnsIn s1 t →
    ∃ (garbage : Byte) (data : List Byte), data.length = count.toNat ∧
      t.txlog = s.txlog ++ regaddr :: List.replicate count.toNat 0 ∧
      t.wire = s.wire ++ (regaddr, garbage) :: data.map (fun d => (0, d)) ∧
      t.bufBytes count.toNat = data ∧
      (∀ a, count.toNat ≤ a → Memory.read t.buf a = Memory.read s.buf a) ∧
      t.clean ∧ t.idx = t.cnt ∧ t.rxbuf = data.getLastD garbage ∧ t.gie = true ∧ t.res = s.res

/-- R127: from a clean state, in every interleaving, SARECVB returns in RES the byte shifted in with the dummy byte,
and does not touch the buffer. -/
def Obligations.RegisterReadByteFromClean : Prop :=
  ∀ (s s1 t : State) (regaddr : Byte), s.clean → Issued (.sarecvb regaddr) s s1 → ReturnsIn s1 t →
    ∃ garbage data : Byte,
      t.txlog = s.txlog ++ [regaddr, 0] ∧ t.wire = s.wire ++ [(regaddr, garbage), (0, data)] ∧
      t.res = data ∧ t.buf = s.buf ∧ t.clean

/-- R129 (b) (the spec's own inference): issued with a stale receive-full flag, each stored byte is, whatever the
interleaving, the intended one or the one of the exchange before; `newBytesIn` lists the garbage byte first. -/
def Obligations.StaleFlagReadStoresIntendedOrPrevious : Prop :=
  ∀ (s s1 t : State) (regaddr : Byte), s.afterSend → Memory.wf s.buf = true →
    (∀ count, Issued (.sarecv regaddr count) s s1 → ReturnsIn s1 t →
      t.txlog = s.txlog ++ regaddr :: List.replicate count.toNat 0 ∧
      ∀ i, i < count.toNat → (newBytesIn s t)[i]? = some (Memory.read t.buf i) ∨
        (newBytesIn s t)[i + 1]? = some (Memory.read t.buf i)) ∧
    (Issued (.sarecvb regaddr) s s1 → ReturnsIn s1 t →
      (newBytesIn s t)[0]? = some t.res ∨ (newBytesIn s t)[1]? = some t.res)

/-- R129 (b) (the spec's own inference): all these results are reachable. For SARECV, for every choice of intended or
previous at each index there is an interleaving that returns with it; for SARECVB there is one that returns in RES the
intended byte and one that returns the garbage byte. -/
def Obligations.StaleFlagReadReachesEveryResult : Prop :=
  (∀ (s s1 : State) (regaddr : Byte) (count : Count) (intended : Nat → Bool), s.afterSend → Memory.wf s.buf = true →
    count.toNat ≤ s.bufcap → Issued (.sarecv regaddr count) s s1 →
    ∃ t, ReturnsIn s1 t ∧ ∀ i, i < count.toNat →
      (newBytesIn s t)[bif intended i then i + 1 else i]? = some (Memory.read t.buf i)) ∧
  (∀ (s s1 : State) (regaddr : Byte) (intended : Bool), s.afterSend → Issued (.sarecvb regaddr) s s1 →
    ∃ t, ReturnsIn s1 t ∧ (newBytesIn s t)[bif intended then 1 else 0]? = some t.res)

/-! ## Returning and hanging -/

/-- R161 (the spec's own inference): from a clean state, or one clean but for a receive-full flag, a send or a
register-read transaction returns. No interleaving gets to a point from which it cannot return any more; in every
weakly fair run (R53) it returns; and so it does in the machine's own run, whose schedule is fair (log 19). -/
def Obligations.TransfersWithClockCanAlwaysReturn : Prop :=
  ∀ (s s1 : State) (i : Instr), s.sendReady →
    ((∃ count, i = .sendbuf count ∧ count.toNat ≤ s.bufcap) ∨ (∃ byte, i = .sendbyte byte) ∨
      (∃ regaddr count, i = .sarecv regaddr count ∧ count.toNat ≤ s.bufcap) ∨ (∃ regaddr, i = .sarecvb regaddr)) →
    Issued i s s1 →
    (∀ u, Reaches s1 u → ∃ t, ReturnsIn u t) ∧
    (∀ order, WeaklyFair order s1 → Eventually order (fun t => t.ph = .idle) s1) ∧
    ∃ n t, runSteps n s1 = .next t ∧ t.ph = .idle

/-- R158, R108 (a) (the spec's own inferences): before INIT, with no flag pending, a transfer of at least one byte
never returns and exchanges nothing. -/
def Obligations.TransfersBeforeInitHang : Prop :=
  ∀ (s s1 t : State) (i : Instr), s.quiet → s.en = false → s.ifgTxe = false → s.ifgRxf = false →
    ((∃ count, i = .sendbuf count ∧ 1 ≤ count) ∨ (∃ byte, i = .sendbyte byte) ∨
      (∃ count, i = .recvbuf count ∧ 1 ≤ count) ∨ i = .recvbyte ∨
      (∃ regaddr count, i = .sarecv regaddr count) ∨ (∃ regaddr, i = .sarecvb regaddr)) →
    Issued i s s1 → Reaches s1 t → t.ph ≠ .idle ∧ t.wire = s.wire

/-- R99: a hang is for ever: no agent's step changes anything, and no fault is recorded (log 12: such a step is a next
step that only draws who moves next). -/
def Obligations.HangIsPermanent : Prop :=
  ∀ s : State, s.hung → step s = .next s.advance ∧ s.advance.hung

/-- R164, R53: with the controller enabled, the only hang is a receive operation with nothing to receive; and in every
weakly fair run an operation whose buffer is large enough returns or gets to that hang. -/
def Obligations.OnlyReceiveOperationsHang : Prop :=
  (∀ s : State, s.ExchangeInv → s.en = true → s.hung →
    s.ph = .aw5 ∧ s.evk = .rxf ∧ s.ret = .rbStore ∧ s.ifgRxf = false ∧ s.busy = false ∧ s.txfull = false) ∧
  (∀ (s : State) (order : Nat → Agent), s.ExchangeInv → s.IdxInv → s.en = true → s.cnt.toNat ≤ s.bufcap →
    WeaklyFair order s → Eventually order (fun t => t.ph = .idle ∨ t.hung) s)

/-! ## Whole-machine rules -/

/-- R161, R89 (the spec's own inferences): every step keeps the exchange invariant. -/
def Obligations.ExchangeInvariantKept : Prop :=
  ∀ s t : State, s.ExchangeInv → step s = .next t → t.ExchangeInv

/-- R160, R161 (the spec's own inferences): the exchange invariant holds in every idle state with nothing armed, no
wait, nothing queued and no transmit-empty pending, the clean state among them; and what it says of an idle state. -/
def Obligations.ExchangeInvariantWhenIdle : Prop :=
  ∀ s : State, s.ph = .idle →
    (s.ExchangeInv ↔ s.ieTxe = false ∧ s.ieRxf = false ∧ s.wait = false ∧ s.ifgTxe = false ∧ s.txfull = false)

/-- R80: no byte waiting in the transmit register is overwritten. -/
def Obligations.NoQueuedByteOverwritten : Prop :=
  ∀ s t : State, s.ExchangeInv → step s = .next t → t.txlog ≠ s.txlog → s.txfull = false

/-- R89 (the spec's own inference): every byte written to the transmit register is exchanged, in order, or still in
flight; and in every weakly fair run (R53) of an enabled controller a byte queued or in flight leads to an exchange,
unless the run stops first. -/
def Obligations.ExchangesFollowWrites : Prop :=
  (∀ s t : State, s.ExchangeInv → s.LogInv → step s = .next t → t.LogInv) ∧ (∀ s : State, s.powerOn → s.LogInv) ∧
  (∀ (s : State) (order : Nat → Agent), s.en = true → (s.txfull = true ∨ s.busy = true) → WeaklyFair order s →
    Eventually order (fun t => s.wire.length < t.wire.length) s ∨ Stops order s)

/-- R17: RXBUF holds the last byte completely shifted in. -/
def Obligations.ReceiveRegisterHoldsLastByte : Prop :=
  (∀ s t : State, s.RxInv → step s = .next t → t.RxInv) ∧ (∀ s : State, s.powerOn → s.RxInv)

/-- R19, R6: `0 <= IDX <= CNT` while an operation runs, and IDX < CNT where it is used as an index or advanced, so
that IDX + 1 never wraps. -/
def Obligations.LoopPositionStaysInRange : Prop :=
  (∀ s t : State, s.ArmInv → s.IdxInv → step s = .next t →
    t.IdxInv ∧ (s.turn ≠ .host → t.idx ≠ s.idx → t.idx.toNat = s.idx.toNat + 1)) ∧
  (∀ s : State, s.ph = .idle → s.IdxInv)

/-- R25, R13, R14, R21, R22: which steps set and clear each flag; no other step does. -/
def Obligations.FlagsChangeOnlyAsListed : Prop :=
  ∀ s t : State, step s = .next t →
    (s.ifgTxe = false → t.ifgTxe = true → s.turn = .shf ∧ s.canLoad = true) ∧
    (s.ifgTxe = true → t.ifgTxe = false →
      (s.turn = .irq ∧ s.gie = true ∧ s.signaled .txe = true) ∨ (s.turn = .seq ∧ s.ph = .cfInit)) ∧
    (s.ifgRxf = false → t.ifgRxf = true → s.turn = .shf ∧ s.canComplete = true) ∧
    (s.ifgRxf = true → t.ifgRxf = false →
      (s.turn = .irq ∧ s.gie = true ∧ s.signaled .rxf = true) ∨ (s.turn = .seq ∧ s.ph = .cfInit)) ∧
    (s.busy = false → t.busy = true → s.turn = .shf ∧ s.canLoad = true) ∧
    (s.busy = true → t.busy = false → s.turn = .shf ∧ s.canComplete = true) ∧
    (s.txfull = false → t.txfull = true → s.turn = .seq ∧ (s.ph = .sbLoop ∨ s.ph = .rrAddr ∨ s.ph = .rrLoop)) ∧
    (s.txfull = true → t.txfull = false → s.turn = .shf ∧ s.canLoad = true) ∧
    (s.wait = false → t.wait = true → s.turn = .seq ∧ s.ph = .aw3) ∧
    (s.wait = true → t.wait = false → s.turn = .irq ∧ s.deliverable = true) ∧
    (s.gie = false → t.gie = true → s.turn = .seq ∧ s.ph = .aw3) ∧
    (s.gie = true → t.gie = false → s.turn = .seq ∧ s.ph = .aw1) ∧
    (∀ k, s.ie k = false → t.ie k = true → s.turn = .seq ∧ s.ph = .aw2 ∧ s.evk = k) ∧
    (∀ k, s.ie k = true → t.ie k = false → s.turn = .seq ∧ s.ph = .aw5 ∧ s.evk = k)

/-- R11, R24: the bit order is hardwired, the enable is never cleared, and the two observables only grow, WIRE by the
shifter alone. -/
def Obligations.ObservablesOnlyGrow : Prop :=
  ∀ s t : State, step s = .next t →
    t.msbf = s.msbf ∧ (s.en = true → t.en = true) ∧ s.txlog <+: t.txlog ∧ s.wire <+: t.wire ∧
    (t.wire ≠ s.wire → s.turn = .shf ∧ s.canComplete = true)

/-- R12, R84: mode, phase, polarity, clock source and divider change no other value: two states that differ only in
them take the same step. -/
def Obligations.BusSettingsAffectNoTransfer : Prop :=
  ∀ s s' : State, s.sameButSettings s' →
    match step s, step s' with
    | .next t, .next t' => t.sameButSettings t'
    | .fault f, .fault f' => f = f'
    | .refused r, .refused r' => r = r'
    | _, _ => False

/-- The frame of every operation at every point of it (R10, R19, R47, R76, R90): its own steps never touch what the
shifter and the host own (SHREG, RXBUF, BUSY, WIRE, the capacity, the port) nor the model's choice of who moves next;
CTL, BRDIV and the pending flags change only in CF_INIT, the enables, GIE and WAIT only in the phases of `armAndWait`,
the transmit register only in the three writing phases; the operand latches only at issue, IDX at issue and where it
advances, DLY in the settling delays, EVK and RET where `armAndWait` is called; every byte of the buffer reads as
before but BUF[IDX] in a store phase of a buffer form, and RES changes only in a store phase of a byte form (RECVBYTE,
opcode 5; SARECVB, opcode 7). -/
def Obligations.OperationsKeepTheirFrame : Prop :=
  ∀ (i : Instr) (s t : State), exec i s = .next t →
    t.shreg = s.shreg ∧ t.rxbuf = s.rxbuf ∧ t.busy = s.busy ∧ t.wire = s.wire ∧ t.msbf = s.msbf ∧
    t.bufcap = s.bufcap ∧ t.port = s.port ∧ t.turn = s.turn ∧ t.tick = s.tick ∧
    (s.ph ≠ .cfInit → t.en = s.en ∧ t.mst = s.mst ∧ t.m3w = s.m3w ∧ t.ckph = s.ckph ∧ t.ckpl = s.ckpl ∧
      t.clksel = s.clksel ∧ t.brdiv = s.brdiv ∧ t.ifgTxe = s.ifgTxe ∧ t.ifgRxf = s.ifgRxf) ∧
    (s.ph.inWait = false → t.ieTxe = s.ieTxe ∧ t.ieRxf = s.ieRxf ∧ t.gie = s.gie ∧ t.wait = s.wait) ∧
    (s.ph ≠ .sbLoop → s.ph ≠ .rrAddr → s.ph ≠ .rrLoop →
      t.txbuf = s.txbuf ∧ t.txfull = s.txfull ∧ t.txlog = s.txlog) ∧
    ((s.ph ≠ .rbStore ∨ s.opc = 5) → (s.ph ≠ .rrStore ∨ s.opc = 7) →
      ∀ a, Memory.read t.buf a = Memory.read s.buf a) ∧
    ((s.ph ≠ .rbStore ∨ s.opc ≠ 5) → (s.ph ≠ .rrStore ∨ s.opc ≠ 7) → t.res = s.res) ∧
    (s.ph ≠ .idle → t.opc = s.opc ∧ t.cnt = s.cnt ∧ t.adr = s.adr ∧ t.held = s.held) ∧
    (s.ph ≠ .idle → s.ph ≠ .sbNext → s.ph ≠ .rbStore → s.ph ≠ .rrDly2 → t.idx = s.idx) ∧
    (s.ph ≠ .rrSet1 → s.ph ≠ .rrDly1 → s.ph ≠ .rrSet2 → s.ph ≠ .rrDly2 → t.dly = s.dly) ∧
    (s.ph ≠ .sbLoop → s.ph ≠ .rbLoop → s.ph ≠ .rrAddr → s.ph ≠ .rrDisc → s.ph ≠ .rrLoop → s.ph ≠ .rrStore →
      t.evk = s.evk ∧ t.ret = s.ret) ∧
    (∀ a, a ≠ s.idx.toNat → Memory.read t.buf a = Memory.read s.buf a)

/-- R42, R47, R54: the block writes the buffer only in the store steps of RECVBUF and SARECV, one byte, at IDX, which
is within the capacity; every other index reads as before; and the host touches the buffer only while the block is
idle. -/
def Obligations.BufferWrittenOnlyAtLoopPosition : Prop :=
  ∀ s t : State, step s = .next t →
    (s.turn ≠ .host → t.bufcap = s.bufcap ∧ (∀ a, a ≠ s.idx.toNat → Memory.read t.buf a = Memory.read s.buf a)) ∧
    (s.turn ≠ .host → t.buf ≠ s.buf →
      s.turn = .seq ∧ s.wait = false ∧ s.idx.toNat < s.bufcap ∧
      ((s.ph = .rbStore ∧ s.opc ≠ 5) ∨ (s.ph = .rrStore ∧ s.opc ≠ 7)) ∧
      (Memory.wf s.buf = true → Memory.read t.buf s.idx.toNat = s.rxbuf)) ∧
    (s.turn = .host → s.ph ≠ .idle → t.buf = s.buf ∧ t.bufcap = s.bufcap)

/-- R43: an access at an index at or above the capacity is a fault of the launch, never a success or a
wrapped index. -/
def Obligations.AccessBeyondCapacityFaults : Prop :=
  ∀ s : State, s.wait = false → s.bufcap ≤ s.idx.toNat →
    (∀ count, s.ph = .sbLoop → s.opc = 2 → s.idx < s.cnt → exec (.sendbuf count) s = .fault (.bufferRead s.idx)) ∧
    (∀ count, s.ph = .rbStore → s.opc = 4 → exec (.recvbuf count) s = .fault (.bufferWrite s.idx)) ∧
    (∀ regaddr count, s.ph = .rrStore → s.opc = 6 →
      exec (.sarecv regaddr count) s = .fault (.bufferWrite s.idx))

/-- The memory keeps its canonical form (log 7), at every step and from reset. -/
def Obligations.BufferKeepsCanonicalForm : Prop :=
  (∀ s t : State, Memory.wf s.buf = true → step s = .next t → Memory.wf t.buf = true) ∧
  Memory.wf State.reset.buf = true

/-- R155: the reset state has every value the spec fixes; the other fields are the model's (logs 6, 8, 9). -/
def Obligations.ResetHasSpecifiedValues : Prop :=
  State.reset.powerOn ∧ State.reset.ready = true ∧ State.reset.irqRequest = false
end

