-- ==== Sys2Proof/Laws/Memory.lean ====
section
/-! SUPPORT. The Transfer Buffer (20_memory.md R40 to R43): a read after a write, and that every operation keeps the
canonical form. -/

namespace Sys2Proof.Machine

@[simp] theorem Memory.read_nil (i : Nat) : Memory.read [] i = Memory.unlisted := rfl

/-- A write leaves every other index alone, in any list of cells. -/
theorem Memory.read_write_of_ne (m : List Host.Cell) {i j : Nat} (v : Byte) (h : j ≠ i) :
    Memory.read (Memory.write m i v) j = Memory.read m j := by
  induction m with
  | nil =>
    unfold Memory.write
    split <;> simp [Memory.read, Ne.symm h]
  | cons c m ih =>
    obtain ⟨a, b⟩ := c
    unfold Memory.write
    split_ifs with hlt hv heq hv'
    · rfl
    · simp [Memory.read, Ne.symm h]
    · subst heq; simp [Memory.read, Ne.symm h]
    · subst heq; simp [Memory.read, Ne.symm h]
    · simp [Memory.read, ih]

/-- Below the first entry nothing is listed. -/
theorem Memory.read_of_wfFrom {m : List Host.Cell} {lo i : Nat} (h : Memory.wfFrom lo m = true) (hi : i < lo) :
    Memory.read m i = Memory.unlisted := by
  induction m generalizing lo with
  | nil => rfl
  | cons c m ih =>
    obtain ⟨a, b⟩ := c
    simp only [Memory.wfFrom, Bool.and_eq_true, decide_eq_true_eq] at h
    have hne : a ≠ i := by omega
    simp [Memory.read, hne, ih h.2 (by omega)]

theorem Memory.wfFrom_mono {m : List Host.Cell} {lo lo' : Nat} (h : Memory.wfFrom lo m = true) (hle : lo' ≤ lo) :
    Memory.wfFrom lo' m = true := by
  cases m with
  | nil => rfl
  | cons c m =>
    obtain ⟨a, b⟩ := c
    simp only [Memory.wfFrom, Bool.and_eq_true, decide_eq_true_eq] at h ⊢
    exact ⟨⟨by omega, h.1.2⟩, h.2⟩

/-- A read of the index just written gives the byte written, in a canonical memory. -/
theorem Memory.read_write_self {m : List Host.Cell} {lo : Nat} (h : Memory.wfFrom lo m = true) (i : Nat) (v : Byte) :
    Memory.read (Memory.write m i v) i = v := by
  induction m generalizing lo with
  | nil =>
    unfold Memory.write
    split <;> simp_all [Memory.read]
  | cons c m ih =>
    obtain ⟨a, b⟩ := c
    have hm := h
    simp only [Memory.wfFrom, Bool.and_eq_true, decide_eq_true_eq] at h
    unfold Memory.write
    split_ifs with hlt hv heq hv'
    · have ha : a ≠ i := by omega
      rw [Memory.read, if_neg ha, Memory.read_of_wfFrom h.2 (by omega), hv]
    · simp [Memory.read]
    · rw [hv', Memory.read_of_wfFrom h.2 (by omega)]
    · simp [Memory.read]
    · have ha : a ≠ i := fun hc => heq hc.symm
      rw [Memory.read, if_neg ha, ih h.2]

theorem Memory.write_wfFrom {m : List Host.Cell} {lo : Nat} (h : Memory.wfFrom lo m = true) {i : Nat} (hi : lo ≤ i)
    (v : Byte) : Memory.wfFrom lo (Memory.write m i v) = true := by
  induction m generalizing lo with
  | nil =>
    unfold Memory.write
    split <;> simp_all [Memory.wfFrom]
  | cons c m ih =>
    obtain ⟨a, b⟩ := c
    have hm := h
    simp only [Memory.wfFrom, Bool.and_eq_true, decide_eq_true_eq, bne_iff_ne, ne_eq] at h
    unfold Memory.write
    split_ifs with hlt hv heq hv'
    · exact hm
    · simp only [Memory.wfFrom, Bool.and_eq_true, decide_eq_true_eq, bne_iff_ne, ne_eq]
      exact ⟨⟨hi, hv⟩, ⟨by omega, h.1.2⟩, h.2⟩
    · exact Memory.wfFrom_mono h.2 (by omega)
    · simp only [Memory.wfFrom, Bool.and_eq_true, decide_eq_true_eq, bne_iff_ne, ne_eq]
      exact ⟨⟨hi, hv'⟩, heq ▸ h.2⟩
    · simp only [Memory.wfFrom, Bool.and_eq_true, decide_eq_true_eq, bne_iff_ne, ne_eq]
      exact ⟨h.1, ih h.2 (by omega)⟩

/-- A write keeps the canonical form. -/
theorem Memory.write_wf {m : List Host.Cell} (h : Memory.wf m = true) (i : Nat) (v : Byte) :
    Memory.wf (Memory.write m i v) = true :=
  Memory.write_wfFrom h (Nat.zero_le i) v

theorem Memory.ofBytes_wfFrom (bytes : List Byte) (i : Nat) : Memory.wfFrom i (Memory.ofBytes i bytes) = true := by
  induction bytes generalizing i with
  | nil => rfl
  | cons v bytes ih =>
    unfold Memory.ofBytes
    split_ifs with hv
    · exact Memory.wfFrom_mono (ih (i + 1)) (by omega)
    · simp [Memory.wfFrom, hv, ih]

/-- A buffer the host designates is in canonical form. -/
theorem Memory.ofBytes_wf (bytes : List Byte) : Memory.wf (Memory.ofBytes 0 bytes) = true :=
  Memory.ofBytes_wfFrom bytes 0

/-- What `MemRead` can answer (R41, R43). -/
theorem State.bufRead_cases (s : State) (i : Count) :
    (i.toNat < s.bufcap ∧ s.bufRead i = .ok (Memory.read s.buf i.toNat)) ∨
    (s.bufcap ≤ i.toNat ∧ s.bufRead i = .error (.bufferRead i)) := by
  unfold State.bufRead
  split_ifs with h
  · exact .inl ⟨h, rfl⟩
  · exact .inr ⟨by omega, rfl⟩

/-- What `MemWrite` can answer (R42, R43). -/
theorem State.bufWrite_cases (s : State) (i : Count) (v : Byte) :
    (i.toNat < s.bufcap ∧ s.bufWrite i v = .ok { s with buf := Memory.write s.buf i.toNat v }) ∨
    (s.bufcap ≤ i.toNat ∧ s.bufWrite i v = .error (.bufferWrite i)) := by
  unfold State.bufWrite
  split_ifs with h
  · exact .inl ⟨h, rfl⟩
  · exact .inr ⟨by omega, rfl⟩

end Sys2Proof.Machine
end

