-- ==== Sys2Proof/Laws/State.lean ====
section
/-! SUPPORT. One lemma per field per update of the state: what each named update writes, and what it leaves alone. -/

namespace Sys2Proof.Machine

/-! `State.txWrite`: TXBUF, TXFULL and TXLOG (R80). -/

@[simp] theorem State.txWrite_en (v : Byte) (s : State) : (s.txWrite v).en = s.en := rfl
@[simp] theorem State.txWrite_mst (v : Byte) (s : State) : (s.txWrite v).mst = s.mst := rfl
@[simp] theorem State.txWrite_m3w (v : Byte) (s : State) : (s.txWrite v).m3w = s.m3w := rfl
@[simp] theorem State.txWrite_msbf (v : Byte) (s : State) : (s.txWrite v).msbf = s.msbf := rfl
@[simp] theorem State.txWrite_ckph (v : Byte) (s : State) : (s.txWrite v).ckph = s.ckph := rfl
@[simp] theorem State.txWrite_ckpl (v : Byte) (s : State) : (s.txWrite v).ckpl = s.ckpl := rfl
@[simp] theorem State.txWrite_clksel (v : Byte) (s : State) : (s.txWrite v).clksel = s.clksel := rfl
@[simp] theorem State.txWrite_brdiv (v : Byte) (s : State) : (s.txWrite v).brdiv = s.brdiv := rfl
@[simp] theorem State.txWrite_ieTxe (v : Byte) (s : State) : (s.txWrite v).ieTxe = s.ieTxe := rfl
@[simp] theorem State.txWrite_ieRxf (v : Byte) (s : State) : (s.txWrite v).ieRxf = s.ieRxf := rfl
@[simp] theorem State.txWrite_ifgTxe (v : Byte) (s : State) : (s.txWrite v).ifgTxe = s.ifgTxe := rfl
@[simp] theorem State.txWrite_ifgRxf (v : Byte) (s : State) : (s.txWrite v).ifgRxf = s.ifgRxf := rfl
@[simp] theorem State.txWrite_busy (v : Byte) (s : State) : (s.txWrite v).busy = s.busy := rfl
@[simp] theorem State.txWrite_txbuf (v : Byte) (s : State) : (s.txWrite v).txbuf = v := rfl
@[simp] theorem State.txWrite_txfull (v : Byte) (s : State) : (s.txWrite v).txfull = true := rfl
@[simp] theorem State.txWrite_shreg (v : Byte) (s : State) : (s.txWrite v).shreg = s.shreg := rfl
@[simp] theorem State.txWrite_rxbuf (v : Byte) (s : State) : (s.txWrite v).rxbuf = s.rxbuf := rfl
@[simp] theorem State.txWrite_ph (v : Byte) (s : State) : (s.txWrite v).ph = s.ph := rfl
@[simp] theorem State.txWrite_opc (v : Byte) (s : State) : (s.txWrite v).opc = s.opc := rfl
@[simp] theorem State.txWrite_cnt (v : Byte) (s : State) : (s.txWrite v).cnt = s.cnt := rfl
@[simp] theorem State.txWrite_idx (v : Byte) (s : State) : (s.txWrite v).idx = s.idx := rfl
@[simp] theorem State.txWrite_adr (v : Byte) (s : State) : (s.txWrite v).adr = s.adr := rfl
@[simp] theorem State.txWrite_dly (v : Byte) (s : State) : (s.txWrite v).dly = s.dly := rfl
@[simp] theorem State.txWrite_evk (v : Byte) (s : State) : (s.txWrite v).evk = s.evk := rfl
@[simp] theorem State.txWrite_ret (v : Byte) (s : State) : (s.txWrite v).ret = s.ret := rfl
@[simp] theorem State.txWrite_res (v : Byte) (s : State) : (s.txWrite v).res = s.res := rfl
@[simp] theorem State.txWrite_held (v : Byte) (s : State) : (s.txWrite v).held = s.held := rfl
@[simp] theorem State.txWrite_wait (v : Byte) (s : State) : (s.txWrite v).wait = s.wait := rfl
@[simp] theorem State.txWrite_gie (v : Byte) (s : State) : (s.txWrite v).gie = s.gie := rfl
@[simp] theorem State.txWrite_txlog (v : Byte) (s : State) : (s.txWrite v).txlog = s.txlog ++ [v] := rfl
@[simp] theorem State.txWrite_wire (v : Byte) (s : State) : (s.txWrite v).wire = s.wire := rfl
@[simp] theorem State.txWrite_port (v : Byte) (s : State) : (s.txWrite v).port = s.port := rfl
@[simp] theorem State.txWrite_buf (v : Byte) (s : State) : (s.txWrite v).buf = s.buf := rfl
@[simp] theorem State.txWrite_bufcap (v : Byte) (s : State) : (s.txWrite v).bufcap = s.bufcap := rfl
@[simp] theorem State.txWrite_turn (v : Byte) (s : State) : (s.txWrite v).turn = s.turn := rfl
@[simp] theorem State.txWrite_tick (v : Byte) (s : State) : (s.txWrite v).tick = s.tick := rfl

/-! `State.armAndWait`: EVK, RET and PH (R90). -/

@[simp] theorem State.armAndWait_en (k : Event) (p : Phase) (s : State) : (s.armAndWait k p).en = s.en := rfl
@[simp] theorem State.armAndWait_mst (k : Event) (p : Phase) (s : State) : (s.armAndWait k p).mst = s.mst := rfl
@[simp] theorem State.armAndWait_m3w (k : Event) (p : Phase) (s : State) : (s.armAndWait k p).m3w = s.m3w := rfl
@[simp] theorem State.armAndWait_msbf (k : Event) (p : Phase) (s : State) : (s.armAndWait k p).msbf = s.msbf := rfl
@[simp] theorem State.armAndWait_ckph (k : Event) (p : Phase) (s : State) : (s.armAndWait k p).ckph = s.ckph := rfl
@[simp] theorem State.armAndWait_ckpl (k : Event) (p : Phase) (s : State) : (s.armAndWait k p).ckpl = s.ckpl := rfl
@[simp] theorem State.armAndWait_clksel (k : Event) (p : Phase) (s : State) : (s.armAndWait k p).clksel = s.clksel := rfl
@[simp] theorem State.armAndWait_brdiv (k : Event) (p : Phase) (s : State) : (s.armAndWait k p).brdiv = s.brdiv := rfl
@[simp] theorem State.armAndWait_ieTxe (k : Event) (p : Phase) (s : State) : (s.armAndWait k p).ieTxe = s.ieTxe := rfl
@[simp] theorem State.armAndWait_ieRxf (k : Event) (p : Phase) (s : State) : (s.armAndWait k p).ieRxf = s.ieRxf := rfl
@[simp] theorem State.armAndWait_ifgTxe (k : Event) (p : Phase) (s : State) : (s.armAndWait k p).ifgTxe = s.ifgTxe := rfl
@[simp] theorem State.armAndWait_ifgRxf (k : Event) (p : Phase) (s : State) : (s.armAndWait k p).ifgRxf = s.ifgRxf := rfl
@[simp] theorem State.armAndWait_busy (k : Event) (p : Phase) (s : State) : (s.armAndWait k p).busy = s.busy := rfl
@[simp] theorem State.armAndWait_txbuf (k : Event) (p : Phase) (s : State) : (s.armAndWait k p).txbuf = s.txbuf := rfl
@[simp] theorem State.armAndWait_txfull (k : Event) (p : Phase) (s : State) : (s.armAndWait k p).txfull = s.txfull := rfl
@[simp] theorem State.armAndWait_shreg (k : Event) (p : Phase) (s : State) : (s.armAndWait k p).shreg = s.shreg := rfl
@[simp] theorem State.armAndWait_rxbuf (k : Event) (p : Phase) (s : State) : (s.armAndWait k p).rxbuf = s.rxbuf := rfl
@[simp] theorem State.armAndWait_ph (k : Event) (p : Phase) (s : State) : (s.armAndWait k p).ph = .aw1 := rfl
@[simp] theorem State.armAndWait_opc (k : Event) (p : Phase) (s : State) : (s.armAndWait k p).opc = s.opc := rfl
@[simp] theorem State.armAndWait_cnt (k : Event) (p : Phase) (s : State) : (s.armAndWait k p).cnt = s.cnt := rfl
@[simp] theorem State.armAndWait_idx (k : Event) (p : Phase) (s : State) : (s.armAndWait k p).idx = s.idx := rfl
@[simp] theorem State.armAndWait_adr (k : Event) (p : Phase) (s : State) : (s.armAndWait k p).adr = s.adr := rfl
@[simp] theorem State.armAndWait_dly (k : Event) (p : Phase) (s : State) : (s.armAndWait k p).dly = s.dly := rfl
@[simp] theorem State.armAndWait_evk (k : Event) (p : Phase) (s : State) : (s.armAndWait k p).evk = k := rfl
@[simp] theorem State.armAndWait_ret (k : Event) (p : Phase) (s : State) : (s.armAndWait k p).ret = p := rfl
@[simp] theorem State.armAndWait_res (k : Event) (p : Phase) (s : State) : (s.armAndWait k p).res = s.res := rfl
@[simp] theorem State.armAndWait_held (k : Event) (p : Phase) (s : State) : (s.armAndWait k p).held = s.held := rfl
@[simp] theorem State.armAndWait_wait (k : Event) (p : Phase) (s : State) : (s.armAndWait k p).wait = s.wait := rfl
@[simp] theorem State.armAndWait_gie (k : Event) (p : Phase) (s : State) : (s.armAndWait k p).gie = s.gie := rfl
@[simp] theorem State.armAndWait_txlog (k : Event) (p : Phase) (s : State) : (s.armAndWait k p).txlog = s.txlog := rfl
@[simp] theorem State.armAndWait_wire (k : Event) (p : Phase) (s : State) : (s.armAndWait k p).wire = s.wire := rfl
@[simp] theorem State.armAndWait_port (k : Event) (p : Phase) (s : State) : (s.armAndWait k p).port = s.port := rfl
@[simp] theorem State.armAndWait_buf (k : Event) (p : Phase) (s : State) : (s.armAndWait k p).buf = s.buf := rfl
@[simp] theorem State.armAndWait_bufcap (k : Event) (p : Phase) (s : State) : (s.armAndWait k p).bufcap = s.bufcap := rfl
@[simp] theorem State.armAndWait_turn (k : Event) (p : Phase) (s : State) : (s.armAndWait k p).turn = s.turn := rfl
@[simp] theorem State.armAndWait_tick (k : Event) (p : Phase) (s : State) : (s.armAndWait k p).tick = s.tick := rfl

/-! `State.advance`: the model's own fields only (log 1). -/

@[simp] theorem State.advance_en (s : State) : (s.advance).en = s.en := rfl
@[simp] theorem State.advance_mst (s : State) : (s.advance).mst = s.mst := rfl
@[simp] theorem State.advance_m3w (s : State) : (s.advance).m3w = s.m3w := rfl
@[simp] theorem State.advance_msbf (s : State) : (s.advance).msbf = s.msbf := rfl
@[simp] theorem State.advance_ckph (s : State) : (s.advance).ckph = s.ckph := rfl
@[simp] theorem State.advance_ckpl (s : State) : (s.advance).ckpl = s.ckpl := rfl
@[simp] theorem State.advance_clksel (s : State) : (s.advance).clksel = s.clksel := rfl
@[simp] theorem State.advance_brdiv (s : State) : (s.advance).brdiv = s.brdiv := rfl
@[simp] theorem State.advance_ieTxe (s : State) : (s.advance).ieTxe = s.ieTxe := rfl
@[simp] theorem State.advance_ieRxf (s : State) : (s.advance).ieRxf = s.ieRxf := rfl
@[simp] theorem State.advance_ifgTxe (s : State) : (s.advance).ifgTxe = s.ifgTxe := rfl
@[simp] theorem State.advance_ifgRxf (s : State) : (s.advance).ifgRxf = s.ifgRxf := rfl
@[simp] theorem State.advance_busy (s : State) : (s.advance).busy = s.busy := rfl
@[simp] theorem State.advance_txbuf (s : State) : (s.advance).txbuf = s.txbuf := rfl
@[simp] theorem State.advance_txfull (s : State) : (s.advance).txfull = s.txfull := rfl
@[simp] theorem State.advance_shreg (s : State) : (s.advance).shreg = s.shreg := rfl
@[simp] theorem State.advance_rxbuf (s : State) : (s.advance).rxbuf = s.rxbuf := rfl
@[simp] theorem State.advance_ph (s : State) : (s.advance).ph = s.ph := rfl
@[simp] theorem State.advance_opc (s : State) : (s.advance).opc = s.opc := rfl
@[simp] theorem State.advance_cnt (s : State) : (s.advance).cnt = s.cnt := rfl
@[simp] theorem State.advance_idx (s : State) : (s.advance).idx = s.idx := rfl
@[simp] theorem State.advance_adr (s : State) : (s.advance).adr = s.adr := rfl
@[simp] theorem State.advance_dly (s : State) : (s.advance).dly = s.dly := rfl
@[simp] theorem State.advance_evk (s : State) : (s.advance).evk = s.evk := rfl
@[simp] theorem State.advance_ret (s : State) : (s.advance).ret = s.ret := rfl
@[simp] theorem State.advance_res (s : State) : (s.advance).res = s.res := rfl
@[simp] theorem State.advance_held (s : State) : (s.advance).held = s.held := rfl
@[simp] theorem State.advance_wait (s : State) : (s.advance).wait = s.wait := rfl
@[simp] theorem State.advance_gie (s : State) : (s.advance).gie = s.gie := rfl
@[simp] theorem State.advance_txlog (s : State) : (s.advance).txlog = s.txlog := rfl
@[simp] theorem State.advance_wire (s : State) : (s.advance).wire = s.wire := rfl
@[simp] theorem State.advance_port (s : State) : (s.advance).port = s.port := rfl
@[simp] theorem State.advance_buf (s : State) : (s.advance).buf = s.buf := rfl
@[simp] theorem State.advance_bufcap (s : State) : (s.advance).bufcap = s.bufcap := rfl
@[simp] theorem State.advance_turn (s : State) : (s.advance).turn = Config.schedule.turn s.tick := rfl
@[simp] theorem State.advance_tick (s : State) : (s.advance).tick = s.tick + 1 := rfl

/-! `State.present`: the interface to the host only (R153). -/

@[simp] theorem State.present_en (w : Word) (bytes : List Byte) (s : State) : (s.present w bytes).en = s.en := rfl
@[simp] theorem State.present_mst (w : Word) (bytes : List Byte) (s : State) : (s.present w bytes).mst = s.mst := rfl
@[simp] theorem State.present_m3w (w : Word) (bytes : List Byte) (s : State) : (s.present w bytes).m3w = s.m3w := rfl
@[simp] theorem State.present_msbf (w : Word) (bytes : List Byte) (s : State) : (s.present w bytes).msbf = s.msbf := rfl
@[simp] theorem State.present_ckph (w : Word) (bytes : List Byte) (s : State) : (s.present w bytes).ckph = s.ckph := rfl
@[simp] theorem State.present_ckpl (w : Word) (bytes : List Byte) (s : State) : (s.present w bytes).ckpl = s.ckpl := rfl
@[simp] theorem State.present_clksel (w : Word) (bytes : List Byte) (s : State) : (s.present w bytes).clksel = s.clksel := rfl
@[simp] theorem State.present_brdiv (w : Word) (bytes : List Byte) (s : State) : (s.present w bytes).brdiv = s.brdiv := rfl
@[simp] theorem State.present_ieTxe (w : Word) (bytes : List Byte) (s : State) : (s.present w bytes).ieTxe = s.ieTxe := rfl
@[simp] theorem State.present_ieRxf (w : Word) (bytes : List Byte) (s : State) : (s.present w bytes).ieRxf = s.ieRxf := rfl
@[simp] theorem State.present_ifgTxe (w : Word) (bytes : List Byte) (s : State) : (s.present w bytes).ifgTxe = s.ifgTxe := rfl
@[simp] theorem State.present_ifgRxf (w : Word) (bytes : List Byte) (s : State) : (s.present w bytes).ifgRxf = s.ifgRxf := rfl
@[simp] theorem State.present_busy (w : Word) (bytes : List Byte) (s : State) : (s.present w bytes).busy = s.busy := rfl
@[simp] theorem State.present_txbuf (w : Word) (bytes : List Byte) (s : State) : (s.present w bytes).txbuf = s.txbuf := rfl
@[simp] theorem State.present_txfull (w : Word) (bytes : List Byte) (s : State) : (s.present w bytes).txfull = s.txfull := rfl
@[simp] theorem State.present_shreg (w : Word) (bytes : List Byte) (s : State) : (s.present w bytes).shreg = s.shreg := rfl
@[simp] theorem State.present_rxbuf (w : Word) (bytes : List Byte) (s : State) : (s.present w bytes).rxbuf = s.rxbuf := rfl
@[simp] theorem State.present_ph (w : Word) (bytes : List Byte) (s : State) : (s.present w bytes).ph = s.ph := rfl
@[simp] theorem State.present_opc (w : Word) (bytes : List Byte) (s : State) : (s.present w bytes).opc = s.opc := rfl
@[simp] theorem State.present_cnt (w : Word) (bytes : List Byte) (s : State) : (s.present w bytes).cnt = s.cnt := rfl
@[simp] theorem State.present_idx (w : Word) (bytes : List Byte) (s : State) : (s.present w bytes).idx = s.idx := rfl
@[simp] theorem State.present_adr (w : Word) (bytes : List Byte) (s : State) : (s.present w bytes).adr = s.adr := rfl
@[simp] theorem State.present_dly (w : Word) (bytes : List Byte) (s : State) : (s.present w bytes).dly = s.dly := rfl
@[simp] theorem State.present_evk (w : Word) (bytes : List Byte) (s : State) : (s.present w bytes).evk = s.evk := rfl
@[simp] theorem State.present_ret (w : Word) (bytes : List Byte) (s : State) : (s.present w bytes).ret = s.ret := rfl
@[simp] theorem State.present_res (w : Word) (bytes : List Byte) (s : State) : (s.present w bytes).res = s.res := rfl
@[simp] theorem State.present_held (w : Word) (bytes : List Byte) (s : State) : (s.present w bytes).held = s.held := rfl
@[simp] theorem State.present_wait (w : Word) (bytes : List Byte) (s : State) : (s.present w bytes).wait = s.wait := rfl
@[simp] theorem State.present_gie (w : Word) (bytes : List Byte) (s : State) : (s.present w bytes).gie = s.gie := rfl
@[simp] theorem State.present_txlog (w : Word) (bytes : List Byte) (s : State) : (s.present w bytes).txlog = s.txlog := rfl
@[simp] theorem State.present_wire (w : Word) (bytes : List Byte) (s : State) : (s.present w bytes).wire = s.wire := rfl
@[simp] theorem State.present_port (w : Word) (bytes : List Byte) (s : State) : (s.present w bytes).port = some w := rfl
@[simp] theorem State.present_buf (w : Word) (bytes : List Byte) (s : State) : (s.present w bytes).buf = Memory.ofBytes 0 bytes := rfl
@[simp] theorem State.present_bufcap (w : Word) (bytes : List Byte) (s : State) : (s.present w bytes).bufcap = bytes.length := rfl
@[simp] theorem State.present_turn (w : Word) (bytes : List Byte) (s : State) : (s.present w bytes).turn = s.turn := rfl
@[simp] theorem State.present_tick (w : Word) (bytes : List Byte) (s : State) : (s.present w bytes).tick = s.tick := rfl

/-! `State.nextIdx`: IDX (R6). -/

@[simp] theorem State.nextIdx_en (s : State) : (s.nextIdx).en = s.en := rfl
@[simp] theorem State.nextIdx_mst (s : State) : (s.nextIdx).mst = s.mst := rfl
@[simp] theorem State.nextIdx_m3w (s : State) : (s.nextIdx).m3w = s.m3w := rfl
@[simp] theorem State.nextIdx_msbf (s : State) : (s.nextIdx).msbf = s.msbf := rfl
@[simp] theorem State.nextIdx_ckph (s : State) : (s.nextIdx).ckph = s.ckph := rfl
@[simp] theorem State.nextIdx_ckpl (s : State) : (s.nextIdx).ckpl = s.ckpl := rfl
@[simp] theorem State.nextIdx_clksel (s : State) : (s.nextIdx).clksel = s.clksel := rfl
@[simp] theorem State.nextIdx_brdiv (s : State) : (s.nextIdx).brdiv = s.brdiv := rfl
@[simp] theorem State.nextIdx_ieTxe (s : State) : (s.nextIdx).ieTxe = s.ieTxe := rfl
@[simp] theorem State.nextIdx_ieRxf (s : State) : (s.nextIdx).ieRxf = s.ieRxf := rfl
@[simp] theorem State.nextIdx_ifgTxe (s : State) : (s.nextIdx).ifgTxe = s.ifgTxe := rfl
@[simp] theorem State.nextIdx_ifgRxf (s : State) : (s.nextIdx).ifgRxf = s.ifgRxf := rfl
@[simp] theorem State.nextIdx_busy (s : State) : (s.nextIdx).busy = s.busy := rfl
@[simp] theorem State.nextIdx_txbuf (s : State) : (s.nextIdx).txbuf = s.txbuf := rfl
@[simp] theorem State.nextIdx_txfull (s : State) : (s.nextIdx).txfull = s.txfull := rfl
@[simp] theorem State.nextIdx_shreg (s : State) : (s.nextIdx).shreg = s.shreg := rfl
@[simp] theorem State.nextIdx_rxbuf (s : State) : (s.nextIdx).rxbuf = s.rxbuf := rfl
@[simp] theorem State.nextIdx_ph (s : State) : (s.nextIdx).ph = s.ph := rfl
@[simp] theorem State.nextIdx_opc (s : State) : (s.nextIdx).opc = s.opc := rfl
@[simp] theorem State.nextIdx_cnt (s : State) : (s.nextIdx).cnt = s.cnt := rfl
@[simp] theorem State.nextIdx_idx (s : State) : (s.nextIdx).idx = s.idx + 1 := rfl
@[simp] theorem State.nextIdx_adr (s : State) : (s.nextIdx).adr = s.adr := rfl
@[simp] theorem State.nextIdx_dly (s : State) : (s.nextIdx).dly = s.dly := rfl
@[simp] theorem State.nextIdx_evk (s : State) : (s.nextIdx).evk = s.evk := rfl
@[simp] theorem State.nextIdx_ret (s : State) : (s.nextIdx).ret = s.ret := rfl
@[simp] theorem State.nextIdx_res (s : State) : (s.nextIdx).res = s.res := rfl
@[simp] theorem State.nextIdx_held (s : State) : (s.nextIdx).held = s.held := rfl
@[simp] theorem State.nextIdx_wait (s : State) : (s.nextIdx).wait = s.wait := rfl
@[simp] theorem State.nextIdx_gie (s : State) : (s.nextIdx).gie = s.gie := rfl
@[simp] theorem State.nextIdx_txlog (s : State) : (s.nextIdx).txlog = s.txlog := rfl
@[simp] theorem State.nextIdx_wire (s : State) : (s.nextIdx).wire = s.wire := rfl
@[simp] theorem State.nextIdx_port (s : State) : (s.nextIdx).port = s.port := rfl
@[simp] theorem State.nextIdx_buf (s : State) : (s.nextIdx).buf = s.buf := rfl
@[simp] theorem State.nextIdx_bufcap (s : State) : (s.nextIdx).bufcap = s.bufcap := rfl
@[simp] theorem State.nextIdx_turn (s : State) : (s.nextIdx).turn = s.turn := rfl
@[simp] theorem State.nextIdx_tick (s : State) : (s.nextIdx).tick = s.tick := rfl

/-! `State.start`: OPC, IDX and PH (R59). -/

@[simp] theorem State.start_en (op : Opcode) (first : Phase) (s : State) : (s.start op first).en = s.en := rfl
@[simp] theorem State.start_mst (op : Opcode) (first : Phase) (s : State) : (s.start op first).mst = s.mst := rfl
@[simp] theorem State.start_m3w (op : Opcode) (first : Phase) (s : State) : (s.start op first).m3w = s.m3w := rfl
@[simp] theorem State.start_msbf (op : Opcode) (first : Phase) (s : State) : (s.start op first).msbf = s.msbf := rfl
@[simp] theorem State.start_ckph (op : Opcode) (first : Phase) (s : State) : (s.start op first).ckph = s.ckph := rfl
@[simp] theorem State.start_ckpl (op : Opcode) (first : Phase) (s : State) : (s.start op first).ckpl = s.ckpl := rfl
@[simp] theorem State.start_clksel (op : Opcode) (first : Phase) (s : State) : (s.start op first).clksel = s.clksel := rfl
@[simp] theorem State.start_brdiv (op : Opcode) (first : Phase) (s : State) : (s.start op first).brdiv = s.brdiv := rfl
@[simp] theorem State.start_ieTxe (op : Opcode) (first : Phase) (s : State) : (s.start op first).ieTxe = s.ieTxe := rfl
@[simp] theorem State.start_ieRxf (op : Opcode) (first : Phase) (s : State) : (s.start op first).ieRxf = s.ieRxf := rfl
@[simp] theorem State.start_ifgTxe (op : Opcode) (first : Phase) (s : State) : (s.start op first).ifgTxe = s.ifgTxe := rfl
@[simp] theorem State.start_ifgRxf (op : Opcode) (first : Phase) (s : State) : (s.start op first).ifgRxf = s.ifgRxf := rfl
@[simp] theorem State.start_busy (op : Opcode) (first : Phase) (s : State) : (s.start op first).busy = s.busy := rfl
@[simp] theorem State.start_txbuf (op : Opcode) (first : Phase) (s : State) : (s.start op first).txbuf = s.txbuf := rfl
@[simp] theorem State.start_txfull (op : Opcode) (first : Phase) (s : State) : (s.start op first).txfull = s.txfull := rfl
@[simp] theorem State.start_shreg (op : Opcode) (first : Phase) (s : State) : (s.start op first).shreg = s.shreg := rfl
@[simp] theorem State.start_rxbuf (op : Opcode) (first : Phase) (s : State) : (s.start op first).rxbuf = s.rxbuf := rfl
@[simp] theorem State.start_ph (op : Opcode) (first : Phase) (s : State) : (s.start op first).ph = first := rfl
@[simp] theorem State.start_opc (op : Opcode) (first : Phase) (s : State) : (s.start op first).opc = op := rfl
@[simp] theorem State.start_cnt (op : Opcode) (first : Phase) (s : State) : (s.start op first).cnt = s.cnt := rfl
@[simp] theorem State.start_idx (op : Opcode) (first : Phase) (s : State) : (s.start op first).idx = 0 := rfl
@[simp] theorem State.start_adr (op : Opcode) (first : Phase) (s : State) : (s.start op first).adr = s.adr := rfl
@[simp] theorem State.start_dly (op : Opcode) (first : Phase) (s : State) : (s.start op first).dly = s.dly := rfl
@[simp] theorem State.start_evk (op : Opcode) (first : Phase) (s : State) : (s.start op first).evk = s.evk := rfl
@[simp] theorem State.start_ret (op : Opcode) (first : Phase) (s : State) : (s.start op first).ret = s.ret := rfl
@[simp] theorem State.start_res (op : Opcode) (first : Phase) (s : State) : (s.start op first).res = s.res := rfl
@[simp] theorem State.start_held (op : Opcode) (first : Phase) (s : State) : (s.start op first).held = s.held := rfl
@[simp] theorem State.start_wait (op : Opcode) (first : Phase) (s : State) : (s.start op first).wait = s.wait := rfl
@[simp] theorem State.start_gie (op : Opcode) (first : Phase) (s : State) : (s.start op first).gie = s.gie := rfl
@[simp] theorem State.start_txlog (op : Opcode) (first : Phase) (s : State) : (s.start op first).txlog = s.txlog := rfl
@[simp] theorem State.start_wire (op : Opcode) (first : Phase) (s : State) : (s.start op first).wire = s.wire := rfl
@[simp] theorem State.start_port (op : Opcode) (first : Phase) (s : State) : (s.start op first).port = s.port := rfl
@[simp] theorem State.start_buf (op : Opcode) (first : Phase) (s : State) : (s.start op first).buf = s.buf := rfl
@[simp] theorem State.start_bufcap (op : Opcode) (first : Phase) (s : State) : (s.start op first).bufcap = s.bufcap := rfl
@[simp] theorem State.start_turn (op : Opcode) (first : Phase) (s : State) : (s.start op first).turn = s.turn := rfl
@[simp] theorem State.start_tick (op : Opcode) (first : Phase) (s : State) : (s.start op first).tick = s.tick := rfl

/-! `State.load`: SHREG, TXFULL, BUSY and IFG.TXE (R81). -/

@[simp] theorem State.load_en (s : State) : (s.load).en = s.en := rfl
@[simp] theorem State.load_mst (s : State) : (s.load).mst = s.mst := rfl
@[simp] theorem State.load_m3w (s : State) : (s.load).m3w = s.m3w := rfl
@[simp] theorem State.load_msbf (s : State) : (s.load).msbf = s.msbf := rfl
@[simp] theorem State.load_ckph (s : State) : (s.load).ckph = s.ckph := rfl
@[simp] theorem State.load_ckpl (s : State) : (s.load).ckpl = s.ckpl := rfl
@[simp] theorem State.load_clksel (s : State) : (s.load).clksel = s.clksel := rfl
@[simp] theorem State.load_brdiv (s : State) : (s.load).brdiv = s.brdiv := rfl
@[simp] theorem State.load_ieTxe (s : State) : (s.load).ieTxe = s.ieTxe := rfl
@[simp] theorem State.load_ieRxf (s : State) : (s.load).ieRxf = s.ieRxf := rfl
@[simp] theorem State.load_ifgTxe (s : State) : (s.load).ifgTxe = true := rfl
@[simp] theorem State.load_ifgRxf (s : State) : (s.load).ifgRxf = s.ifgRxf := rfl
@[simp] theorem State.load_busy (s : State) : (s.load).busy = true := rfl
@[simp] theorem State.load_txbuf (s : State) : (s.load).txbuf = s.txbuf := rfl
@[simp] theorem State.load_txfull (s : State) : (s.load).txfull = false := rfl
@[simp] theorem State.load_shreg (s : State) : (s.load).shreg = s.txbuf := rfl
@[simp] theorem State.load_rxbuf (s : State) : (s.load).rxbuf = s.rxbuf := rfl
@[simp] theorem State.load_ph (s : State) : (s.load).ph = s.ph := rfl
@[simp] theorem State.load_opc (s : State) : (s.load).opc = s.opc := rfl
@[simp] theorem State.load_cnt (s : State) : (s.load).cnt = s.cnt := rfl
@[simp] theorem State.load_idx (s : State) : (s.load).idx = s.idx := rfl
@[simp] theorem State.load_adr (s : State) : (s.load).adr = s.adr := rfl
@[simp] theorem State.load_dly (s : State) : (s.load).dly = s.dly := rfl
@[simp] theorem State.load_evk (s : State) : (s.load).evk = s.evk := rfl
@[simp] theorem State.load_ret (s : State) : (s.load).ret = s.ret := rfl
@[simp] theorem State.load_res (s : State) : (s.load).res = s.res := rfl
@[simp] theorem State.load_held (s : State) : (s.load).held = s.held := rfl
@[simp] theorem State.load_wait (s : State) : (s.load).wait = s.wait := rfl
@[simp] theorem State.load_gie (s : State) : (s.load).gie = s.gie := rfl
@[simp] theorem State.load_txlog (s : State) : (s.load).txlog = s.txlog := rfl
@[simp] theorem State.load_wire (s : State) : (s.load).wire = s.wire := rfl
@[simp] theorem State.load_port (s : State) : (s.load).port = s.port := rfl
@[simp] theorem State.load_buf (s : State) : (s.load).buf = s.buf := rfl
@[simp] theorem State.load_bufcap (s : State) : (s.load).bufcap = s.bufcap := rfl
@[simp] theorem State.load_turn (s : State) : (s.load).turn = s.turn := rfl
@[simp] theorem State.load_tick (s : State) : (s.load).tick = s.tick := rfl

/-! `State.complete`: WIRE, RXBUF, IFG.RXF and BUSY (R82). -/

@[simp] theorem State.complete_en (m : Byte) (s : State) : (s.complete m).en = s.en := rfl
@[simp] theorem State.complete_mst (m : Byte) (s : State) : (s.complete m).mst = s.mst := rfl
@[simp] theorem State.complete_m3w (m : Byte) (s : State) : (s.complete m).m3w = s.m3w := rfl
@[simp] theorem State.complete_msbf (m : Byte) (s : State) : (s.complete m).msbf = s.msbf := rfl
@[simp] theorem State.complete_ckph (m : Byte) (s : State) : (s.complete m).ckph = s.ckph := rfl
@[simp] theorem State.complete_ckpl (m : Byte) (s : State) : (s.complete m).ckpl = s.ckpl := rfl
@[simp] theorem State.complete_clksel (m : Byte) (s : State) : (s.complete m).clksel = s.clksel := rfl
@[simp] theorem State.complete_brdiv (m : Byte) (s : State) : (s.complete m).brdiv = s.brdiv := rfl
@[simp] theorem State.complete_ieTxe (m : Byte) (s : State) : (s.complete m).ieTxe = s.ieTxe := rfl
@[simp] theorem State.complete_ieRxf (m : Byte) (s : State) : (s.complete m).ieRxf = s.ieRxf := rfl
@[simp] theorem State.complete_ifgTxe (m : Byte) (s : State) : (s.complete m).ifgTxe = s.ifgTxe := rfl
@[simp] theorem State.complete_ifgRxf (m : Byte) (s : State) : (s.complete m).ifgRxf = true := rfl
@[simp] theorem State.complete_busy (m : Byte) (s : State) : (s.complete m).busy = false := rfl
@[simp] theorem State.complete_txbuf (m : Byte) (s : State) : (s.complete m).txbuf = s.txbuf := rfl
@[simp] theorem State.complete_txfull (m : Byte) (s : State) : (s.complete m).txfull = s.txfull := rfl
@[simp] theorem State.complete_shreg (m : Byte) (s : State) : (s.complete m).shreg = s.shreg := rfl
@[simp] theorem State.complete_rxbuf (m : Byte) (s : State) : (s.complete m).rxbuf = m := rfl
@[simp] theorem State.complete_ph (m : Byte) (s : State) : (s.complete m).ph = s.ph := rfl
@[simp] theorem State.complete_opc (m : Byte) (s : State) : (s.complete m).opc = s.opc := rfl
@[simp] theorem State.complete_cnt (m : Byte) (s : State) : (s.complete m).cnt = s.cnt := rfl
@[simp] theorem State.complete_idx (m : Byte) (s : State) : (s.complete m).idx = s.idx := rfl
@[simp] theorem State.complete_adr (m : Byte) (s : State) : (s.complete m).adr = s.adr := rfl
@[simp] theorem State.complete_dly (m : Byte) (s : State) : (s.complete m).dly = s.dly := rfl
@[simp] theorem State.complete_evk (m : Byte) (s : State) : (s.complete m).evk = s.evk := rfl
@[simp] theorem State.complete_ret (m : Byte) (s : State) : (s.complete m).ret = s.ret := rfl
@[simp] theorem State.complete_res (m : Byte) (s : State) : (s.complete m).res = s.res := rfl
@[simp] theorem State.complete_held (m : Byte) (s : State) : (s.complete m).held = s.held := rfl
@[simp] theorem State.complete_wait (m : Byte) (s : State) : (s.complete m).wait = s.wait := rfl
@[simp] theorem State.complete_gie (m : Byte) (s : State) : (s.complete m).gie = s.gie := rfl
@[simp] theorem State.complete_txlog (m : Byte) (s : State) : (s.complete m).txlog = s.txlog := rfl
@[simp] theorem State.complete_wire (m : Byte) (s : State) : (s.complete m).wire = s.wire ++ [(s.shreg, m)] := rfl
@[simp] theorem State.complete_port (m : Byte) (s : State) : (s.complete m).port = s.port := rfl
@[simp] theorem State.complete_buf (m : Byte) (s : State) : (s.complete m).buf = s.buf := rfl
@[simp] theorem State.complete_bufcap (m : Byte) (s : State) : (s.complete m).bufcap = s.bufcap := rfl
@[simp] theorem State.complete_turn (m : Byte) (s : State) : (s.complete m).turn = s.turn := rfl
@[simp] theorem State.complete_tick (m : Byte) (s : State) : (s.complete m).tick = s.tick := rfl

/-! `State.aw1`: GIE and PH (R91). -/

@[simp] theorem State.aw1_en (s : State) : (s.aw1).en = s.en := rfl
@[simp] theorem State.aw1_mst (s : State) : (s.aw1).mst = s.mst := rfl
@[simp] theorem State.aw1_m3w (s : State) : (s.aw1).m3w = s.m3w := rfl
@[simp] theorem State.aw1_msbf (s : State) : (s.aw1).msbf = s.msbf := rfl
@[simp] theorem State.aw1_ckph (s : State) : (s.aw1).ckph = s.ckph := rfl
@[simp] theorem State.aw1_ckpl (s : State) : (s.aw1).ckpl = s.ckpl := rfl
@[simp] theorem State.aw1_clksel (s : State) : (s.aw1).clksel = s.clksel := rfl
@[simp] theorem State.aw1_brdiv (s : State) : (s.aw1).brdiv = s.brdiv := rfl
@[simp] theorem State.aw1_ieTxe (s : State) : (s.aw1).ieTxe = s.ieTxe := rfl
@[simp] theorem State.aw1_ieRxf (s : State) : (s.aw1).ieRxf = s.ieRxf := rfl
@[simp] theorem State.aw1_ifgTxe (s : State) : (s.aw1).ifgTxe = s.ifgTxe := rfl
@[simp] theorem State.aw1_ifgRxf (s : State) : (s.aw1).ifgRxf = s.ifgRxf := rfl
@[simp] theorem State.aw1_busy (s : State) : (s.aw1).busy = s.busy := rfl
@[simp] theorem State.aw1_txbuf (s : State) : (s.aw1).txbuf = s.txbuf := rfl
@[simp] theorem State.aw1_txfull (s : State) : (s.aw1).txfull = s.txfull := rfl
@[simp] theorem State.aw1_shreg (s : State) : (s.aw1).shreg = s.shreg := rfl
@[simp] theorem State.aw1_rxbuf (s : State) : (s.aw1).rxbuf = s.rxbuf := rfl
@[simp] theorem State.aw1_ph (s : State) : (s.aw1).ph = .aw2 := rfl
@[simp] theorem State.aw1_opc (s : State) : (s.aw1).opc = s.opc := rfl
@[simp] theorem State.aw1_cnt (s : State) : (s.aw1).cnt = s.cnt := rfl
@[simp] theorem State.aw1_idx (s : State) : (s.aw1).idx = s.idx := rfl
@[simp] theorem State.aw1_adr (s : State) : (s.aw1).adr = s.adr := rfl
@[simp] theorem State.aw1_dly (s : State) : (s.aw1).dly = s.dly := rfl
@[simp] theorem State.aw1_evk (s : State) : (s.aw1).evk = s.evk := rfl
@[simp] theorem State.aw1_ret (s : State) : (s.aw1).ret = s.ret := rfl
@[simp] theorem State.aw1_res (s : State) : (s.aw1).res = s.res := rfl
@[simp] theorem State.aw1_held (s : State) : (s.aw1).held = s.held := rfl
@[simp] theorem State.aw1_wait (s : State) : (s.aw1).wait = s.wait := rfl
@[simp] theorem State.aw1_gie (s : State) : (s.aw1).gie = false := rfl
@[simp] theorem State.aw1_txlog (s : State) : (s.aw1).txlog = s.txlog := rfl
@[simp] theorem State.aw1_wire (s : State) : (s.aw1).wire = s.wire := rfl
@[simp] theorem State.aw1_port (s : State) : (s.aw1).port = s.port := rfl
@[simp] theorem State.aw1_buf (s : State) : (s.aw1).buf = s.buf := rfl
@[simp] theorem State.aw1_bufcap (s : State) : (s.aw1).bufcap = s.bufcap := rfl
@[simp] theorem State.aw1_turn (s : State) : (s.aw1).turn = s.turn := rfl
@[simp] theorem State.aw1_tick (s : State) : (s.aw1).tick = s.tick := rfl

/-! `State.aw3`: GIE, WAIT and PH (R93). -/

@[simp] theorem State.aw3_en (s : State) : (s.aw3).en = s.en := rfl
@[simp] theorem State.aw3_mst (s : State) : (s.aw3).mst = s.mst := rfl
@[simp] theorem State.aw3_m3w (s : State) : (s.aw3).m3w = s.m3w := rfl
@[simp] theorem State.aw3_msbf (s : State) : (s.aw3).msbf = s.msbf := rfl
@[simp] theorem State.aw3_ckph (s : State) : (s.aw3).ckph = s.ckph := rfl
@[simp] theorem State.aw3_ckpl (s : State) : (s.aw3).ckpl = s.ckpl := rfl
@[simp] theorem State.aw3_clksel (s : State) : (s.aw3).clksel = s.clksel := rfl
@[simp] theorem State.aw3_brdiv (s : State) : (s.aw3).brdiv = s.brdiv := rfl
@[simp] theorem State.aw3_ieTxe (s : State) : (s.aw3).ieTxe = s.ieTxe := rfl
@[simp] theorem State.aw3_ieRxf (s : State) : (s.aw3).ieRxf = s.ieRxf := rfl
@[simp] theorem State.aw3_ifgTxe (s : State) : (s.aw3).ifgTxe = s.ifgTxe := rfl
@[simp] theorem State.aw3_ifgRxf (s : State) : (s.aw3).ifgRxf = s.ifgRxf := rfl
@[simp] theorem State.aw3_busy (s : State) : (s.aw3).busy = s.busy := rfl
@[simp] theorem State.aw3_txbuf (s : State) : (s.aw3).txbuf = s.txbuf := rfl
@[simp] theorem State.aw3_txfull (s : State) : (s.aw3).txfull = s.txfull := rfl
@[simp] theorem State.aw3_shreg (s : State) : (s.aw3).shreg = s.shreg := rfl
@[simp] theorem State.aw3_rxbuf (s : State) : (s.aw3).rxbuf = s.rxbuf := rfl
@[simp] theorem State.aw3_ph (s : State) : (s.aw3).ph = .aw5 := rfl
@[simp] theorem State.aw3_opc (s : State) : (s.aw3).opc = s.opc := rfl
@[simp] theorem State.aw3_cnt (s : State) : (s.aw3).cnt = s.cnt := rfl
@[simp] theorem State.aw3_idx (s : State) : (s.aw3).idx = s.idx := rfl
@[simp] theorem State.aw3_adr (s : State) : (s.aw3).adr = s.adr := rfl
@[simp] theorem State.aw3_dly (s : State) : (s.aw3).dly = s.dly := rfl
@[simp] theorem State.aw3_evk (s : State) : (s.aw3).evk = s.evk := rfl
@[simp] theorem State.aw3_ret (s : State) : (s.aw3).ret = s.ret := rfl
@[simp] theorem State.aw3_res (s : State) : (s.aw3).res = s.res := rfl
@[simp] theorem State.aw3_held (s : State) : (s.aw3).held = s.held := rfl
@[simp] theorem State.aw3_wait (s : State) : (s.aw3).wait = true := rfl
@[simp] theorem State.aw3_gie (s : State) : (s.aw3).gie = true := rfl
@[simp] theorem State.aw3_txlog (s : State) : (s.aw3).txlog = s.txlog := rfl
@[simp] theorem State.aw3_wire (s : State) : (s.aw3).wire = s.wire := rfl
@[simp] theorem State.aw3_port (s : State) : (s.aw3).port = s.port := rfl
@[simp] theorem State.aw3_buf (s : State) : (s.aw3).buf = s.buf := rfl
@[simp] theorem State.aw3_bufcap (s : State) : (s.aw3).bufcap = s.bufcap := rfl
@[simp] theorem State.aw3_turn (s : State) : (s.aw3).turn = s.turn := rfl
@[simp] theorem State.aw3_tick (s : State) : (s.aw3).tick = s.tick := rfl

/-! `State.configure`: CTL, BRDIV, IFG and PH (R70, R76). -/

@[simp] theorem State.configure_en (p : ClockParams) (s : State) : (s.configure p).en = true := rfl
@[simp] theorem State.configure_mst (p : ClockParams) (s : State) : (s.configure p).mst = true := rfl
@[simp] theorem State.configure_m3w (p : ClockParams) (s : State) : (s.configure p).m3w = true := rfl
@[simp] theorem State.configure_msbf (p : ClockParams) (s : State) : (s.configure p).msbf = s.msbf := rfl
@[simp] theorem State.configure_ckph (p : ClockParams) (s : State) : (s.configure p).ckph = s.held.ckph := rfl
@[simp] theorem State.configure_ckpl (p : ClockParams) (s : State) : (s.configure p).ckpl = s.held.ckpl := rfl
@[simp] theorem State.configure_clksel (p : ClockParams) (s : State) : (s.configure p).clksel = selectClock p s.held.clksel := rfl
@[simp] theorem State.configure_brdiv (p : ClockParams) (s : State) : (s.configure p).brdiv = p.brdivOf (p.freq (selectClock p s.held.clksel)) s.held.rate := rfl
@[simp] theorem State.configure_ieTxe (p : ClockParams) (s : State) : (s.configure p).ieTxe = s.ieTxe := rfl
@[simp] theorem State.configure_ieRxf (p : ClockParams) (s : State) : (s.configure p).ieRxf = s.ieRxf := rfl
@[simp] theorem State.configure_ifgTxe (p : ClockParams) (s : State) : (s.configure p).ifgTxe = false := rfl
@[simp] theorem State.configure_ifgRxf (p : ClockParams) (s : State) : (s.configure p).ifgRxf = false := rfl
@[simp] theorem State.configure_busy (p : ClockParams) (s : State) : (s.configure p).busy = s.busy := rfl
@[simp] theorem State.configure_txbuf (p : ClockParams) (s : State) : (s.configure p).txbuf = s.txbuf := rfl
@[simp] theorem State.configure_txfull (p : ClockParams) (s : State) : (s.configure p).txfull = s.txfull := rfl
@[simp] theorem State.configure_shreg (p : ClockParams) (s : State) : (s.configure p).shreg = s.shreg := rfl
@[simp] theorem State.configure_rxbuf (p : ClockParams) (s : State) : (s.configure p).rxbuf = s.rxbuf := rfl
@[simp] theorem State.configure_ph (p : ClockParams) (s : State) : (s.configure p).ph = .idle := rfl
@[simp] theorem State.configure_opc (p : ClockParams) (s : State) : (s.configure p).opc = s.opc := rfl
@[simp] theorem State.configure_cnt (p : ClockParams) (s : State) : (s.configure p).cnt = s.cnt := rfl
@[simp] theorem State.configure_idx (p : ClockParams) (s : State) : (s.configure p).idx = s.idx := rfl
@[simp] theorem State.configure_adr (p : ClockParams) (s : State) : (s.configure p).adr = s.adr := rfl
@[simp] theorem State.configure_dly (p : ClockParams) (s : State) : (s.configure p).dly = s.dly := rfl
@[simp] theorem State.configure_evk (p : ClockParams) (s : State) : (s.configure p).evk = s.evk := rfl
@[simp] theorem State.configure_ret (p : ClockParams) (s : State) : (s.configure p).ret = s.ret := rfl
@[simp] theorem State.configure_res (p : ClockParams) (s : State) : (s.configure p).res = s.res := rfl
@[simp] theorem State.configure_held (p : ClockParams) (s : State) : (s.configure p).held = s.held := rfl
@[simp] theorem State.configure_wait (p : ClockParams) (s : State) : (s.configure p).wait = s.wait := rfl
@[simp] theorem State.configure_gie (p : ClockParams) (s : State) : (s.configure p).gie = s.gie := rfl
@[simp] theorem State.configure_txlog (p : ClockParams) (s : State) : (s.configure p).txlog = s.txlog := rfl
@[simp] theorem State.configure_wire (p : ClockParams) (s : State) : (s.configure p).wire = s.wire := rfl
@[simp] theorem State.configure_port (p : ClockParams) (s : State) : (s.configure p).port = s.port := rfl
@[simp] theorem State.configure_buf (p : ClockParams) (s : State) : (s.configure p).buf = s.buf := rfl
@[simp] theorem State.configure_bufcap (p : ClockParams) (s : State) : (s.configure p).bufcap = s.bufcap := rfl
@[simp] theorem State.configure_turn (p : ClockParams) (s : State) : (s.configure p).turn = s.turn := rfl
@[simp] theorem State.configure_tick (p : ClockParams) (s : State) : (s.configure p).tick = s.tick := rfl

/-! `State.setIe`: one bit of IE (R13). -/

@[simp] theorem State.setIe_en (k : Event) (b : Bool) (s : State) : (s.setIe k b).en = s.en := by cases k <;> rfl
@[simp] theorem State.setIe_mst (k : Event) (b : Bool) (s : State) : (s.setIe k b).mst = s.mst := by cases k <;> rfl
@[simp] theorem State.setIe_m3w (k : Event) (b : Bool) (s : State) : (s.setIe k b).m3w = s.m3w := by cases k <;> rfl
@[simp] theorem State.setIe_msbf (k : Event) (b : Bool) (s : State) : (s.setIe k b).msbf = s.msbf := by cases k <;> rfl
@[simp] theorem State.setIe_ckph (k : Event) (b : Bool) (s : State) : (s.setIe k b).ckph = s.ckph := by cases k <;> rfl
@[simp] theorem State.setIe_ckpl (k : Event) (b : Bool) (s : State) : (s.setIe k b).ckpl = s.ckpl := by cases k <;> rfl
@[simp] theorem State.setIe_clksel (k : Event) (b : Bool) (s : State) : (s.setIe k b).clksel = s.clksel := by cases k <;> rfl
@[simp] theorem State.setIe_brdiv (k : Event) (b : Bool) (s : State) : (s.setIe k b).brdiv = s.brdiv := by cases k <;> rfl
@[simp] theorem State.setIe_ifgTxe (k : Event) (b : Bool) (s : State) : (s.setIe k b).ifgTxe = s.ifgTxe := by cases k <;> rfl
@[simp] theorem State.setIe_ifgRxf (k : Event) (b : Bool) (s : State) : (s.setIe k b).ifgRxf = s.ifgRxf := by cases k <;> rfl
@[simp] theorem State.setIe_busy (k : Event) (b : Bool) (s : State) : (s.setIe k b).busy = s.busy := by cases k <;> rfl
@[simp] theorem State.setIe_txbuf (k : Event) (b : Bool) (s : State) : (s.setIe k b).txbuf = s.txbuf := by cases k <;> rfl
@[simp] theorem State.setIe_txfull (k : Event) (b : Bool) (s : State) : (s.setIe k b).txfull = s.txfull := by cases k <;> rfl
@[simp] theorem State.setIe_shreg (k : Event) (b : Bool) (s : State) : (s.setIe k b).shreg = s.shreg := by cases k <;> rfl
@[simp] theorem State.setIe_rxbuf (k : Event) (b : Bool) (s : State) : (s.setIe k b).rxbuf = s.rxbuf := by cases k <;> rfl
@[simp] theorem State.setIe_ph (k : Event) (b : Bool) (s : State) : (s.setIe k b).ph = s.ph := by cases k <;> rfl
@[simp] theorem State.setIe_opc (k : Event) (b : Bool) (s : State) : (s.setIe k b).opc = s.opc := by cases k <;> rfl
@[simp] theorem State.setIe_cnt (k : Event) (b : Bool) (s : State) : (s.setIe k b).cnt = s.cnt := by cases k <;> rfl
@[simp] theorem State.setIe_idx (k : Event) (b : Bool) (s : State) : (s.setIe k b).idx = s.idx := by cases k <;> rfl
@[simp] theorem State.setIe_adr (k : Event) (b : Bool) (s : State) : (s.setIe k b).adr = s.adr := by cases k <;> rfl
@[simp] theorem State.setIe_dly (k : Event) (b : Bool) (s : State) : (s.setIe k b).dly = s.dly := by cases k <;> rfl
@[simp] theorem State.setIe_evk (k : Event) (b : Bool) (s : State) : (s.setIe k b).evk = s.evk := by cases k <;> rfl
@[simp] theorem State.setIe_ret (k : Event) (b : Bool) (s : State) : (s.setIe k b).ret = s.ret := by cases k <;> rfl
@[simp] theorem State.setIe_res (k : Event) (b : Bool) (s : State) : (s.setIe k b).res = s.res := by cases k <;> rfl
@[simp] theorem State.setIe_held (k : Event) (b : Bool) (s : State) : (s.setIe k b).held = s.held := by cases k <;> rfl
@[simp] theorem State.setIe_wait (k : Event) (b : Bool) (s : State) : (s.setIe k b).wait = s.wait := by cases k <;> rfl
@[simp] theorem State.setIe_gie (k : Event) (b : Bool) (s : State) : (s.setIe k b).gie = s.gie := by cases k <;> rfl
@[simp] theorem State.setIe_txlog (k : Event) (b : Bool) (s : State) : (s.setIe k b).txlog = s.txlog := by cases k <;> rfl
@[simp] theorem State.setIe_wire (k : Event) (b : Bool) (s : State) : (s.setIe k b).wire = s.wire := by cases k <;> rfl
@[simp] theorem State.setIe_port (k : Event) (b : Bool) (s : State) : (s.setIe k b).port = s.port := by cases k <;> rfl
@[simp] theorem State.setIe_buf (k : Event) (b : Bool) (s : State) : (s.setIe k b).buf = s.buf := by cases k <;> rfl
@[simp] theorem State.setIe_bufcap (k : Event) (b : Bool) (s : State) : (s.setIe k b).bufcap = s.bufcap := by cases k <;> rfl
@[simp] theorem State.setIe_turn (k : Event) (b : Bool) (s : State) : (s.setIe k b).turn = s.turn := by cases k <;> rfl
@[simp] theorem State.setIe_tick (k : Event) (b : Bool) (s : State) : (s.setIe k b).tick = s.tick := by cases k <;> rfl

/-! `State.takeInterrupt`: one bit of IFG, and WAIT (R136). -/

@[simp] theorem State.takeInterrupt_en (s : State) : (s.takeInterrupt).en = s.en := by
  unfold State.takeInterrupt; split <;> rfl
@[simp] theorem State.takeInterrupt_mst (s : State) : (s.takeInterrupt).mst = s.mst := by
  unfold State.takeInterrupt; split <;> rfl
@[simp] theorem State.takeInterrupt_m3w (s : State) : (s.takeInterrupt).m3w = s.m3w := by
  unfold State.takeInterrupt; split <;> rfl
@[simp] theorem State.takeInterrupt_msbf (s : State) : (s.takeInterrupt).msbf = s.msbf := by
  unfold State.takeInterrupt; split <;> rfl
@[simp] theorem State.takeInterrupt_ckph (s : State) : (s.takeInterrupt).ckph = s.ckph := by
  unfold State.takeInterrupt; split <;> rfl
@[simp] theorem State.takeInterrupt_ckpl (s : State) : (s.takeInterrupt).ckpl = s.ckpl := by
  unfold State.takeInterrupt; split <;> rfl
@[simp] theorem State.takeInterrupt_clksel (s : State) : (s.takeInterrupt).clksel = s.clksel := by
  unfold State.takeInterrupt; split <;> rfl
@[simp] theorem State.takeInterrupt_brdiv (s : State) : (s.takeInterrupt).brdiv = s.brdiv := by
  unfold State.takeInterrupt; split <;> rfl
@[simp] theorem State.takeInterrupt_ieTxe (s : State) : (s.takeInterrupt).ieTxe = s.ieTxe := by
  unfold State.takeInterrupt; split <;> rfl
@[simp] theorem State.takeInterrupt_ieRxf (s : State) : (s.takeInterrupt).ieRxf = s.ieRxf := by
  unfold State.takeInterrupt; split <;> rfl
@[simp] theorem State.takeInterrupt_busy (s : State) : (s.takeInterrupt).busy = s.busy := by
  unfold State.takeInterrupt; split <;> rfl
@[simp] theorem State.takeInterrupt_txbuf (s : State) : (s.takeInterrupt).txbuf = s.txbuf := by
  unfold State.takeInterrupt; split <;> rfl
@[simp] theorem State.takeInterrupt_txfull (s : State) : (s.takeInterrupt).txfull = s.txfull := by
  unfold State.takeInterrupt; split <;> rfl
@[simp] theorem State.takeInterrupt_shreg (s : State) : (s.takeInterrupt).shreg = s.shreg := by
  unfold State.takeInterrupt; split <;> rfl
@[simp] theorem State.takeInterrupt_rxbuf (s : State) : (s.takeInterrupt).rxbuf = s.rxbuf := by
  unfold State.takeInterrupt; split <;> rfl
@[simp] theorem State.takeInterrupt_ph (s : State) : (s.takeInterrupt).ph = s.ph := by
  unfold State.takeInterrupt; split <;> rfl
@[simp] theorem State.takeInterrupt_opc (s : State) : (s.takeInterrupt).opc = s.opc := by
  unfold State.takeInterrupt; split <;> rfl
@[simp] theorem State.takeInterrupt_cnt (s : State) : (s.takeInterrupt).cnt = s.cnt := by
  unfold State.takeInterrupt; split <;> rfl
@[simp] theorem State.takeInterrupt_idx (s : State) : (s.takeInterrupt).idx = s.idx := by
  unfold State.takeInterrupt; split <;> rfl
@[simp] theorem State.takeInterrupt_adr (s : State) : (s.takeInterrupt).adr = s.adr := by
  unfold State.takeInterrupt; split <;> rfl
@[simp] theorem State.takeInterrupt_dly (s : State) : (s.takeInterrupt).dly = s.dly := by
  unfold State.takeInterrupt; split <;> rfl
@[simp] theorem State.takeInterrupt_evk (s : State) : (s.takeInterrupt).evk = s.evk := by
  unfold State.takeInterrupt; split <;> rfl
@[simp] theorem State.takeInterrupt_ret (s : State) : (s.takeInterrupt).ret = s.ret := by
  unfold State.takeInterrupt; split <;> rfl
@[simp] theorem State.takeInterrupt_res (s : State) : (s.takeInterrupt).res = s.res := by
  unfold State.takeInterrupt; split <;> rfl
@[simp] theorem State.takeInterrupt_held (s : State) : (s.takeInterrupt).held = s.held := by
  unfold State.takeInterrupt; split <;> rfl
@[simp] theorem State.takeInterrupt_gie (s : State) : (s.takeInterrupt).gie = s.gie := by
  unfold State.takeInterrupt; split <;> rfl
@[simp] theorem State.takeInterrupt_txlog (s : State) : (s.takeInterrupt).txlog = s.txlog := by
  unfold State.takeInterrupt; split <;> rfl
@[simp] theorem State.takeInterrupt_wire (s : State) : (s.takeInterrupt).wire = s.wire := by
  unfold State.takeInterrupt; split <;> rfl
@[simp] theorem State.takeInterrupt_port (s : State) : (s.takeInterrupt).port = s.port := by
  unfold State.takeInterrupt; split <;> rfl
@[simp] theorem State.takeInterrupt_buf (s : State) : (s.takeInterrupt).buf = s.buf := by
  unfold State.takeInterrupt; split <;> rfl
@[simp] theorem State.takeInterrupt_bufcap (s : State) : (s.takeInterrupt).bufcap = s.bufcap := by
  unfold State.takeInterrupt; split <;> rfl
@[simp] theorem State.takeInterrupt_turn (s : State) : (s.takeInterrupt).turn = s.turn := by
  unfold State.takeInterrupt; split <;> rfl
@[simp] theorem State.takeInterrupt_tick (s : State) : (s.takeInterrupt).tick = s.tick := by
  unfold State.takeInterrupt; split <;> rfl

/-! `State.aw2`: IE[EVK] and PH (R92). -/

@[simp] theorem State.aw2_en (s : State) : (s.aw2).en = s.en := State.setIe_en _ _ s
@[simp] theorem State.aw2_mst (s : State) : (s.aw2).mst = s.mst := State.setIe_mst _ _ s
@[simp] theorem State.aw2_m3w (s : State) : (s.aw2).m3w = s.m3w := State.setIe_m3w _ _ s
@[simp] theorem State.aw2_msbf (s : State) : (s.aw2).msbf = s.msbf := State.setIe_msbf _ _ s
@[simp] theorem State.aw2_ckph (s : State) : (s.aw2).ckph = s.ckph := State.setIe_ckph _ _ s
@[simp] theorem State.aw2_ckpl (s : State) : (s.aw2).ckpl = s.ckpl := State.setIe_ckpl _ _ s
@[simp] theorem State.aw2_clksel (s : State) : (s.aw2).clksel = s.clksel := State.setIe_clksel _ _ s
@[simp] theorem State.aw2_brdiv (s : State) : (s.aw2).brdiv = s.brdiv := State.setIe_brdiv _ _ s
@[simp] theorem State.aw2_ifgTxe (s : State) : (s.aw2).ifgTxe = s.ifgTxe := State.setIe_ifgTxe _ _ s
@[simp] theorem State.aw2_ifgRxf (s : State) : (s.aw2).ifgRxf = s.ifgRxf := State.setIe_ifgRxf _ _ s
@[simp] theorem State.aw2_busy (s : State) : (s.aw2).busy = s.busy := State.setIe_busy _ _ s
@[simp] theorem State.aw2_txbuf (s : State) : (s.aw2).txbuf = s.txbuf := State.setIe_txbuf _ _ s
@[simp] theorem State.aw2_txfull (s : State) : (s.aw2).txfull = s.txfull := State.setIe_txfull _ _ s
@[simp] theorem State.aw2_shreg (s : State) : (s.aw2).shreg = s.shreg := State.setIe_shreg _ _ s
@[simp] theorem State.aw2_rxbuf (s : State) : (s.aw2).rxbuf = s.rxbuf := State.setIe_rxbuf _ _ s
@[simp] theorem State.aw2_ph (s : State) : (s.aw2).ph = .aw3 := rfl
@[simp] theorem State.aw2_opc (s : State) : (s.aw2).opc = s.opc := State.setIe_opc _ _ s
@[simp] theorem State.aw2_cnt (s : State) : (s.aw2).cnt = s.cnt := State.setIe_cnt _ _ s
@[simp] theorem State.aw2_idx (s : State) : (s.aw2).idx = s.idx := State.setIe_idx _ _ s
@[simp] theorem State.aw2_adr (s : State) : (s.aw2).adr = s.adr := State.setIe_adr _ _ s
@[simp] theorem State.aw2_dly (s : State) : (s.aw2).dly = s.dly := State.setIe_dly _ _ s
@[simp] theorem State.aw2_evk (s : State) : (s.aw2).evk = s.evk := State.setIe_evk _ _ s
@[simp] theorem State.aw2_ret (s : State) : (s.aw2).ret = s.ret := State.setIe_ret _ _ s
@[simp] theorem State.aw2_res (s : State) : (s.aw2).res = s.res := State.setIe_res _ _ s
@[simp] theorem State.aw2_held (s : State) : (s.aw2).held = s.held := State.setIe_held _ _ s
@[simp] theorem State.aw2_wait (s : State) : (s.aw2).wait = s.wait := State.setIe_wait _ _ s
@[simp] theorem State.aw2_gie (s : State) : (s.aw2).gie = s.gie := State.setIe_gie _ _ s
@[simp] theorem State.aw2_txlog (s : State) : (s.aw2).txlog = s.txlog := State.setIe_txlog _ _ s
@[simp] theorem State.aw2_wire (s : State) : (s.aw2).wire = s.wire := State.setIe_wire _ _ s
@[simp] theorem State.aw2_port (s : State) : (s.aw2).port = s.port := State.setIe_port _ _ s
@[simp] theorem State.aw2_buf (s : State) : (s.aw2).buf = s.buf := State.setIe_buf _ _ s
@[simp] theorem State.aw2_bufcap (s : State) : (s.aw2).bufcap = s.bufcap := State.setIe_bufcap _ _ s
@[simp] theorem State.aw2_turn (s : State) : (s.aw2).turn = s.turn := State.setIe_turn _ _ s
@[simp] theorem State.aw2_tick (s : State) : (s.aw2).tick = s.tick := State.setIe_tick _ _ s

/-! `State.aw5`: IE[EVK] and PH (R95). -/

@[simp] theorem State.aw5_en (s : State) : (s.aw5).en = s.en := State.setIe_en _ _ s
@[simp] theorem State.aw5_mst (s : State) : (s.aw5).mst = s.mst := State.setIe_mst _ _ s
@[simp] theorem State.aw5_m3w (s : State) : (s.aw5).m3w = s.m3w := State.setIe_m3w _ _ s
@[simp] theorem State.aw5_msbf (s : State) : (s.aw5).msbf = s.msbf := State.setIe_msbf _ _ s
@[simp] theorem State.aw5_ckph (s : State) : (s.aw5).ckph = s.ckph := State.setIe_ckph _ _ s
@[simp] theorem State.aw5_ckpl (s : State) : (s.aw5).ckpl = s.ckpl := State.setIe_ckpl _ _ s
@[simp] theorem State.aw5_clksel (s : State) : (s.aw5).clksel = s.clksel := State.setIe_clksel _ _ s
@[simp] theorem State.aw5_brdiv (s : State) : (s.aw5).brdiv = s.brdiv := State.setIe_brdiv _ _ s
@[simp] theorem State.aw5_ifgTxe (s : State) : (s.aw5).ifgTxe = s.ifgTxe := State.setIe_ifgTxe _ _ s
@[simp] theorem State.aw5_ifgRxf (s : State) : (s.aw5).ifgRxf = s.ifgRxf := State.setIe_ifgRxf _ _ s
@[simp] theorem State.aw5_busy (s : State) : (s.aw5).busy = s.busy := State.setIe_busy _ _ s
@[simp] theorem State.aw5_txbuf (s : State) : (s.aw5).txbuf = s.txbuf := State.setIe_txbuf _ _ s
@[simp] theorem State.aw5_txfull (s : State) : (s.aw5).txfull = s.txfull := State.setIe_txfull _ _ s
@[simp] theorem State.aw5_shreg (s : State) : (s.aw5).shreg = s.shreg := State.setIe_shreg _ _ s
@[simp] theorem State.aw5_rxbuf (s : State) : (s.aw5).rxbuf = s.rxbuf := State.setIe_rxbuf _ _ s
@[simp] theorem State.aw5_ph (s : State) : (s.aw5).ph = s.ret := rfl
@[simp] theorem State.aw5_opc (s : State) : (s.aw5).opc = s.opc := State.setIe_opc _ _ s
@[simp] theorem State.aw5_cnt (s : State) : (s.aw5).cnt = s.cnt := State.setIe_cnt _ _ s
@[simp] theorem State.aw5_idx (s : State) : (s.aw5).idx = s.idx := State.setIe_idx _ _ s
@[simp] theorem State.aw5_adr (s : State) : (s.aw5).adr = s.adr := State.setIe_adr _ _ s
@[simp] theorem State.aw5_dly (s : State) : (s.aw5).dly = s.dly := State.setIe_dly _ _ s
@[simp] theorem State.aw5_evk (s : State) : (s.aw5).evk = s.evk := State.setIe_evk _ _ s
@[simp] theorem State.aw5_ret (s : State) : (s.aw5).ret = s.ret := State.setIe_ret _ _ s
@[simp] theorem State.aw5_res (s : State) : (s.aw5).res = s.res := State.setIe_res _ _ s
@[simp] theorem State.aw5_held (s : State) : (s.aw5).held = s.held := State.setIe_held _ _ s
@[simp] theorem State.aw5_wait (s : State) : (s.aw5).wait = s.wait := State.setIe_wait _ _ s
@[simp] theorem State.aw5_gie (s : State) : (s.aw5).gie = s.gie := State.setIe_gie _ _ s
@[simp] theorem State.aw5_txlog (s : State) : (s.aw5).txlog = s.txlog := State.setIe_txlog _ _ s
@[simp] theorem State.aw5_wire (s : State) : (s.aw5).wire = s.wire := State.setIe_wire _ _ s
@[simp] theorem State.aw5_port (s : State) : (s.aw5).port = s.port := State.setIe_port _ _ s
@[simp] theorem State.aw5_buf (s : State) : (s.aw5).buf = s.buf := State.setIe_buf _ _ s
@[simp] theorem State.aw5_bufcap (s : State) : (s.aw5).bufcap = s.bufcap := State.setIe_bufcap _ _ s
@[simp] theorem State.aw5_turn (s : State) : (s.aw5).turn = s.turn := State.setIe_turn _ _ s
@[simp] theorem State.aw5_tick (s : State) : (s.aw5).tick = s.tick := State.setIe_tick _ _ s

/-! The bits the two-way updates write. -/

@[simp] theorem State.setIe_ie (k j : Event) (b : Bool) (s : State) :
    (s.setIe k b).ie j = if j = k then b else s.ie j := by
  cases k <;> cases j <;> rfl

@[simp] theorem State.setIe_ifg (k j : Event) (b : Bool) (s : State) : (s.setIe k b).ifg j = s.ifg j := by
  cases k <;> cases j <;> rfl

@[simp] theorem State.aw2_ie (j : Event) (s : State) : s.aw2.ie j = if j = s.evk then true else s.ie j :=
  (show s.aw2.ie j = (s.setIe s.evk true).ie j by cases j <;> rfl).trans (State.setIe_ie s.evk j true s)

@[simp] theorem State.aw5_ie (j : Event) (s : State) : s.aw5.ie j = if j = s.evk then false else s.ie j :=
  (show s.aw5.ie j = (s.setIe s.evk false).ie j by cases j <;> rfl).trans (State.setIe_ie s.evk j false s)

@[simp] theorem State.takeInterrupt_ie (j : Event) (s : State) : s.takeInterrupt.ie j = s.ie j := by
  unfold State.takeInterrupt; split <;> cases j <;> rfl

/-- The handler's three cases (R136): receive-full first, then transmit-empty, else nothing. -/
theorem State.takeInterrupt_cases (s : State) :
    (s.signaled .rxf = true ∧ s.takeInterrupt = { s with ifgRxf := false, wait := false }) ∨
    (s.signaled .rxf = false ∧ s.signaled .txe = true ∧
      s.takeInterrupt = { s with ifgTxe := false, wait := false }) ∨
    (s.signaled .rxf = false ∧ s.signaled .txe = false ∧ s.takeInterrupt = s) := by
  unfold State.takeInterrupt State.iv
  cases s.signaled .rxf <;> cases s.signaled .txe <;> simp

end Sys2Proof.Machine
end

