-- ==== Sys2Proof/Laws/Step.lean ====
section
/-! SUPPORT. What each phase, each agent and each step can do, said once: if it answers `next t`, one of these cases
holds. -/

namespace Sys2Proof.Machine

/-- The state the issue step of an operation leaves (30_encoding.md R59). -/
def issue : Instr → State → State
  | .init clksel rate ckph ckpl, s => issueInit clksel rate ckph ckpl s
  | .sendbuf count, s => issueSendbuf count s
  | .sendbyte byte, s => issueSendbyte byte s
  | .recvbuf count, s => issueRecvbuf count s
  | .recvbyte, s => issueRecvbyte s
  | .sarecv regaddr count, s => issueSarecv regaddr count s
  | .sarecvb regaddr, s => issueSarecvb regaddr s

/-- Every operation is the next step of the shared `operate` with its own opcode and issue step. -/
theorem exec_eq_operate (i : Instr) (s : State) : exec i s = operate i.opcode (issue i s) s := by
  cases i <;> rfl

theorem exec_of_idle {s : State} (i : Instr) (h : s.ph = .idle) : exec i s = .next (issue i s) := by
  rw [exec_eq_operate, operate, if_pos h]

/-- An operation in progress takes the sequencer's step. -/
theorem exec_of_running {s : State} {i : Instr} (h : s.ph ≠ .idle) (hop : s.opc = i.opcode) : exec i s = seqStep s := by
  rw [exec_eq_operate, operate, if_neg h, if_pos hop]

/-- While another operation is in progress a command changes nothing. -/
theorem exec_of_other {s : State} {i : Instr} (h : s.ph ≠ .idle) (hop : s.opc ≠ i.opcode) : exec i s = .next s := by
  rw [exec_eq_operate, operate, if_neg h, if_neg hop]

/-- The byte a send operation sends, when there is one (R101). -/
theorem State.sendOperand_cases (s : State) :
    (s.opc = 3 ∧ s.sendOperand = .ok s.adr) ∨
    (s.opc ≠ 3 ∧ s.idx.toNat < s.bufcap ∧ s.sendOperand = .ok (Memory.read s.buf s.idx.toNat)) ∨
    (s.opc ≠ 3 ∧ s.bufcap ≤ s.idx.toNat ∧ s.sendOperand = .error (.bufferRead s.idx)) := by
  unfold State.sendOperand
  split_ifs with h
  · exact .inl ⟨h, rfl⟩
  · obtain ⟨hb, he⟩ | ⟨hb, he⟩ := s.bufRead_cases s.idx
    · exact .inr (.inl ⟨h, hb, he⟩)
    · exact .inr (.inr ⟨h, hb, he⟩)

/-- Where a received byte goes (R112, R125). -/
theorem State.storeReceived_cases (op : Opcode) (v : Byte) (s : State) :
    (s.opc = op ∧ s.storeReceived op v = .ok { s with res := v }) ∨
    (s.opc ≠ op ∧ s.idx.toNat < s.bufcap ∧
      s.storeReceived op v = .ok { s with buf := Memory.write s.buf s.idx.toNat v }) ∨
    (s.opc ≠ op ∧ s.bufcap ≤ s.idx.toNat ∧ s.storeReceived op v = .error (.bufferWrite s.idx)) := by
  unfold State.storeReceived
  split_ifs with h
  · exact .inl ⟨h, rfl⟩
  · obtain ⟨hb, he⟩ | ⟨hb, he⟩ := s.bufWrite_cases s.idx v
    · exact .inr (.inl ⟨h, hb, he⟩)
    · exact .inr (.inr ⟨h, hb, he⟩)

/-- What the sequencer's step can do (10_state.md R20). -/
inductive SeqCase (s : State) : State → Prop where
  | waiting : s.wait = true → SeqCase s s
  | idle : s.wait = false → s.ph = .idle → SeqCase s s
  | cfInit : s.wait = false → s.ph = .cfInit → SeqCase s (s.configure Config.clock)
  | aw1 : s.wait = false → s.ph = .aw1 → SeqCase s s.aw1
  | aw2 : s.wait = false → s.ph = .aw2 → SeqCase s s.aw2
  | aw3 : s.wait = false → s.ph = .aw3 → SeqCase s s.aw3
  | aw5 : s.wait = false → s.ph = .aw5 → SeqCase s s.aw5
  | sbWrite (v : Byte) : s.wait = false → s.ph = .sbLoop → s.more = true → s.sendOperand = .ok v →
      SeqCase s ((s.txWrite v).armAndWait .txe .sbNext)
  | sbDone : s.wait = false → s.ph = .sbLoop → s.more = false → SeqCase s { s with ph := .sbPoll }
  | sbNext : s.wait = false → s.ph = .sbNext → SeqCase s { s.nextIdx with ph := .sbLoop }
  | sbPollBusy : s.wait = false → s.ph = .sbPoll → s.busy = true → SeqCase s { s with ph := .sbPoll }
  | sbPollDone : s.wait = false → s.ph = .sbPoll → s.busy = false → SeqCase s { s with ph := .idle }
  | rbWait : s.wait = false → s.ph = .rbLoop → s.more = true → SeqCase s (s.armAndWait .rxf .rbStore)
  | rbDone : s.wait = false → s.ph = .rbLoop → s.more = false → SeqCase s { s with ph := .idle }
  | rbStoreRes : s.wait = false → s.ph = .rbStore → s.opc = 5 →
      SeqCase s { s with res := s.rxbuf, idx := s.idx + 1, ph := .rbLoop }
  | rbStoreBuf : s.wait = false → s.ph = .rbStore → s.opc ≠ 5 → s.idx.toNat < s.bufcap →
      SeqCase s { s with buf := Memory.write s.buf s.idx.toNat s.rxbuf, idx := s.idx + 1, ph := .rbLoop }
  | rrAddr : s.wait = false → s.ph = .rrAddr → SeqCase s ((s.txWrite s.adr).armAndWait .rxf .rrDisc)
  | rrDisc : s.wait = false → s.ph = .rrDisc → SeqCase s (s.armAndWait .txe .rrSet1)
  | rrSet1 : s.wait = false → s.ph = .rrSet1 → SeqCase s { s with dly := Config.settleCycles, ph := .rrDly1 }
  | rrDly1Count : s.wait = false → s.ph = .rrDly1 → s.dly ≠ 0 → SeqCase s { s with dly := s.dly - 1, ph := .rrDly1 }
  | rrDly1Done : s.wait = false → s.ph = .rrDly1 → s.dly = 0 → SeqCase s { s with ph := .rrLoop }
  | rrWrite : s.wait = false → s.ph = .rrLoop → s.more = true →
      SeqCase s ((s.txWrite dummyByte).armAndWait .rxf .rrStore)
  | rrDone : s.wait = false → s.ph = .rrLoop → s.more = false → SeqCase s { s with ph := .idle }
  | rrStoreRes : s.wait = false → s.ph = .rrStore → s.opc = 7 →
      SeqCase s (State.armAndWait .txe .rrSet2 { s with res := s.rxbuf })
  | rrStoreBuf : s.wait = false → s.ph = .rrStore → s.opc ≠ 7 → s.idx.toNat < s.bufcap →
      SeqCase s (State.armAndWait .txe .rrSet2 { s with buf := Memory.write s.buf s.idx.toNat s.rxbuf })
  | rrSet2 : s.wait = false → s.ph = .rrSet2 → SeqCase s { s with dly := Config.settleCycles, ph := .rrDly2 }
  | rrDly2Count : s.wait = false → s.ph = .rrDly2 → s.dly ≠ 0 → SeqCase s { s with dly := s.dly - 1, ph := .rrDly2 }
  | rrDly2Done : s.wait = false → s.ph = .rrDly2 → s.dly = 0 → SeqCase s { s.nextIdx with ph := .rrLoop }

theorem seqStep_cases {s t : State} (h : seqStep s = .next t) : SeqCase s t := by
  unfold seqStep at h
  cases hw : s.wait with
  | true => simp only [hw, if_true] at h; cases h; exact .waiting hw
  | false =>
    simp only [hw, Bool.false_eq_true, if_false] at h
    cases hp : s.ph with
    | idle => simp only [hp] at h; cases h; exact .idle hw hp
    | cfInit => simp only [hp] at h; cases h; exact .cfInit hw hp
    | aw1 => simp only [hp] at h; cases h; exact .aw1 hw hp
    | aw2 => simp only [hp] at h; cases h; exact .aw2 hw hp
    | aw3 => simp only [hp] at h; cases h; exact .aw3 hw hp
    | aw5 => simp only [hp] at h; cases h; exact .aw5 hw hp
    | sbLoop =>
      simp only [hp, sbLoop] at h
      split at h
      next hm =>
        split at h
        next v hv => cases h; exact .sbWrite v hw hp hm hv
        next => cases h
      next hm => cases h; exact .sbDone hw hp (by simpa using hm)
    | sbNext => simp only [hp] at h; cases h; exact .sbNext hw hp
    | sbPoll =>
      simp only [hp, State.sbPoll] at h
      split at h
      next hb => cases h; exact .sbPollBusy hw hp hb
      next hb => cases h; exact .sbPollDone hw hp (by simpa using hb)
    | rbLoop =>
      simp only [hp, State.rbLoop] at h
      split at h
      next hm => cases h; exact .rbWait hw hp hm
      next hm => cases h; exact .rbDone hw hp (by simpa using hm)
    | rbStore =>
      simp only [hp, rbStore] at h
      obtain ⟨ho, he⟩ | ⟨ho, hb, he⟩ | ⟨ho, hb, he⟩ := s.storeReceived_cases 5 s.rxRead <;> simp only [he] at h <;>
        cases h
      · exact .rbStoreRes hw hp ho
      · exact .rbStoreBuf hw hp ho hb
    | rrAddr => simp only [hp] at h; cases h; exact .rrAddr hw hp
    | rrDisc => simp only [hp] at h; cases h; exact .rrDisc hw hp
    | rrSet1 => simp only [hp] at h; cases h; exact .rrSet1 hw hp
    | rrDly1 =>
      simp only [hp, State.rrDly1] at h
      split at h
      next hd => cases h; exact .rrDly1Count hw hp hd
      next hd => cases h; exact .rrDly1Done hw hp (by simpa using hd)
    | rrLoop =>
      simp only [hp, State.rrLoop] at h
      split at h
      next hm => cases h; exact .rrWrite hw hp hm
      next hm => cases h; exact .rrDone hw hp (by simpa using hm)
    | rrStore =>
      simp only [hp, rrStore] at h
      obtain ⟨ho, he⟩ | ⟨ho, hb, he⟩ | ⟨ho, hb, he⟩ := s.storeReceived_cases 7 s.rxRead <;> simp only [he] at h <;>
        cases h
      · exact .rrStoreRes hw hp ho
      · exact .rrStoreBuf hw hp ho hb
    | rrSet2 => simp only [hp] at h; cases h; exact .rrSet2 hw hp
    | rrDly2 =>
      simp only [hp, State.rrDly2] at h
      split at h
      next hd => cases h; exact .rrDly2Count hw hp hd
      next hd => cases h; exact .rrDly2Done hw hp (by simpa using hd)

/-- What the shifter's turn can do (R81, R82, R85). -/
theorem shfStep_cases {s t : State} (h : shfStep s = .next t) :
    (s.canLoad = true ∧ t = s.load) ∨
    (s.canLoad = false ∧ s.canComplete = true ∧ t = s.complete (Config.slave s.tick s.wire s.shreg)) ∨
    (s.canLoad = false ∧ s.canComplete = false ∧ t = s) := by
  unfold shfStep at h
  cases hl : s.canLoad <;> cases hc : s.canComplete <;> simp only [hl, hc] at h <;> cases h <;> simp

/-- What the handler's turn can do (60_exceptions.md R136, R140). -/
theorem irqStep_cases {s t : State} (h : irqStep s = .next t) :
    (s.gie = true ∧ s.signaled .rxf = true ∧ t = { s with ifgRxf := false, wait := false }) ∨
    (s.gie = true ∧ s.signaled .rxf = false ∧ s.signaled .txe = true ∧ t = { s with ifgTxe := false, wait := false }) ∨
    ((s.gie = false ∨ s.signaled .rxf = false ∧ s.signaled .txe = false) ∧ t = s) := by
  unfold irqStep at h
  rcases Bool.eq_false_or_eq_true s.gie with hg | hg
  swap
  · simp only [hg] at h; cases h; exact .inr (.inr ⟨.inl hg, rfl⟩)
  · simp only [hg, if_true] at h; cases h
    obtain ⟨hr, he⟩ | ⟨hr, ht, he⟩ | ⟨hr, ht, he⟩ := s.takeInterrupt_cases
    · exact .inl ⟨hg, hr, he⟩
    · exact .inr (.inl ⟨hg, hr, ht, he⟩)
    · exact .inr (.inr ⟨.inr ⟨hr, ht⟩, he⟩)

/-- What the host's turn can do (60_exceptions.md R153). -/
theorem hostStep_cases {s t : State} (h : hostStep s = .next t) :
    (s.ph = .idle ∧ ∃ w i, s.port = some w ∧ decode w = .ok i ∧ t = issue i { s with port := none }) ∨
    (s.ph = .idle ∧ s.port = none ∧ ∃ m : HostMove, t = s.present (encode m.command) m.bytes) ∨
    t = s := by
  unfold hostStep at h
  cases hr : s.ready with
  | false => simp only [hr] at h; cases h; exact .inr (.inr rfl)
  | true =>
    have hp : s.ph = .idle := by simpa [State.ready] using hr
    cases hw : s.port with
    | none =>
      simp only [hr, hw] at h
      split at h
      next => cases h; exact .inr (.inr rfl)
      next m _ => cases h; exact .inr (.inl ⟨hp, rfl, m, rfl⟩)
    | some w =>
      simp only [hr, hw, issueWord] at h
      split at h
      next i hi =>
        rw [exec_of_idle (s := { s with port := none }) i hp] at h
        cases h
        exact .inl ⟨hp, w, i, rfl, hi, rfl⟩
      next => cases h

/-- What one step of an agent can do. -/
theorem agentStep_cases {a : Agent} {s t : State} (h : agentStep a s = .next t) :
    (a = .host ∧ hostStep s = .next t) ∨ (a = .seq ∧ SeqCase s t) ∨ (a = .shf ∧ shfStep s = .next t) ∨
    (a = .irq ∧ irqStep s = .next t) := by
  cases a with
  | host => exact .inl ⟨rfl, h⟩
  | seq => exact .inr (.inl ⟨rfl, seqStep_cases h⟩)
  | shf => exact .inr (.inr (.inl ⟨rfl, h⟩))
  | irq => exact .inr (.inr (.inr ⟨rfl, h⟩))

/-- A step is the step of the agent whose turn it is. -/
theorem step_eq_act (s : State) : step s = act s.turn s := rfl

/-- A run in two parts. -/
theorem runAgents_append (o o' : List Agent) (s : State) :
    runAgents (o ++ o') s =
      match runAgents o s with
      | .next t => runAgents o' t
      | .fault f => .fault f
      | .refused r => .refused r := by
  induction o generalizing s with
  | nil => rfl
  | cons a o ih =>
    simp only [List.cons_append, runAgents]
    cases act a s with
    | next t => exact ih t
    | fault f => rfl
    | refused r => rfl

/-- What every step of SEQ, SHF and IRQ keeps, every run of theirs keeps. -/
theorem Reaches.preserves {P : State → Prop}
    (hstep : ∀ a s t, a ≠ Agent.host → P s → act a s = .next t → P t) {s t : State} (h : Reaches s t) (hs : P s) :
    P t := by
  obtain ⟨o, ho, hr⟩ := h
  induction o generalizing s with
  | nil => cases hr; exact hs
  | cons a o ih =>
    simp only [List.mem_cons, not_or] at ho
    simp only [runAgents] at hr
    cases ha : act a s with
    | next u => rw [ha] at hr; exact ih (hstep a s u (Ne.symm ho.1) hs ha) ho.2 hr
    | fault f => rw [ha] at hr; cases hr
    | refused r => rw [ha] at hr; cases hr

theorem Reaches.refl (s : State) : Reaches s s := ⟨[], by simp, rfl⟩

theorem Reaches.trans {s t u : State} (h : Reaches s t) (h' : Reaches t u) : Reaches s u := by
  obtain ⟨o, ho, hr⟩ := h
  obtain ⟨o', ho', hr'⟩ := h'
  exact ⟨o ++ o', by simp [ho, ho'], by rw [runAgents_append, hr]; exact hr'⟩

theorem Reaches.step {s t : State} {a : Agent} (ha : a ≠ .host) (h : act a s = .next t) : Reaches s t :=
  ⟨[a], by simpa using Ne.symm ha, by simp only [runAgents, h]⟩

end Sys2Proof.Machine
end

