-- ==== Sys2Proof/Laws/Fair.lean ====
section
/-! SUPPORT. Weakly fair runs (20_memory.md R53): the machine's own run is one, and how to show that a fair run gets
somewhere. -/

namespace Sys2Proof.Machine

/-- A run of `m + n` steps is a run of `m` followed by one of `n`. -/
theorem runFor_add {m : Nat} {order : Nat → Agent} {s t : State} (h : runFor m order s = .next t) (n : Nat) :
    runFor (m + n) order s = runFor n (fun k => order (k + m)) t := by
  induction m generalizing order s with
  | zero => cases h; simp
  | succ m ih =>
    simp only [runFor] at h
    rw [Nat.add_right_comm, runFor]
    cases ha : act (order 0) s with
    | next u => rw [ha] at h; exact ih h
    | fault f => rw [ha] at h; cases h
    | refused r => rw [ha] at h; cases h

/-- A run of one more step. -/
theorem runFor_succ {n : Nat} {order : Nat → Agent} {s t : State} (h : runFor n order s = .next t) :
    runFor (n + 1) order s = act (order n) t := by
  rw [runFor_add h 1]
  simp only [runFor, Nat.zero_add]
  cases act (order n) t <;> rfl

/-- The rest of a weakly fair run is weakly fair. -/
theorem WeaklyFair.rest {m : Nat} {order : Nat → Agent} {s t : State} (hf : WeaklyFair order s)
    (h : runFor m order s = .next t) : WeaklyFair (fun k => order (k + m)) t := by
  intro a ha n hn
  obtain ⟨k, hk, hka⟩ := hf a ha (m + n) (fun j hj => by
    obtain ⟨i, rfl⟩ := Nat.le.dest (Nat.le_trans (Nat.le_add_right m n) hj)
    rw [runFor_add h]
    exact hn i (by omega))
  exact ⟨k - m, by omega, by simpa only [Nat.sub_add_cancel (show m ≤ k by omega)] using hka⟩

theorem Eventually.of_rest {m : Nat} {order : Nat → Agent} {P : State → Prop} {s t : State}
    (h : runFor m order s = .next t) (he : Eventually (fun k => order (k + m)) P t) : Eventually order P s := by
  obtain ⟨n, u, hr, hu⟩ := he
  exact ⟨m + n, u, by rw [runFor_add h]; exact hr, hu⟩

theorem Stops.of_rest {m : Nat} {order : Nat → Agent} {s t : State} (h : runFor m order s = .next t)
    (hs : Stops (fun k => order (k + m)) t) : Stops order s := by
  obtain ⟨n, hn⟩ := hs
  exact ⟨m + n, fun u => by rw [runFor_add h]; exact hn u⟩

/-- Under an order in which every agent moves again and again, every run is weakly fair. -/
theorem WeaklyFair.of_fairOrder {order : Nat → Agent} (h : FairOrder order) (s : State) : WeaklyFair order s :=
  fun a ha n _ => h a ha n

/-- The order of the machine's own run is fair. -/
theorem State.order_fair (s : State) : FairOrder s.order := by
  intro a ha n
  obtain ⟨m, hm, h⟩ := Config.schedule.fair a ha (s.tick + n)
  refine ⟨m - s.tick + 1, by omega, ?_⟩
  rw [State.order, Nat.add_sub_cancel' (by omega)]
  exact h

theorem act_turn_tick {a : Agent} {s t : State} (h : act a s = .next t) :
    t.turn = Config.schedule.turn s.tick ∧ t.tick = s.tick + 1 := by
  obtain ⟨-, h⟩ | ⟨-, h⟩ | ⟨-, h⟩ | ⟨-, h⟩ := agentStep_cases h
  · obtain ⟨-, w, i, -, -, rfl⟩ | ⟨-, -, m, rfl⟩ | rfl := hostStep_cases h
    · cases i <;> exact ⟨rfl, rfl⟩
    · exact ⟨rfl, rfl⟩
    · exact ⟨rfl, rfl⟩
  · cases h <;> first | exact ⟨rfl, rfl⟩ | (simp [State.aw2, State.aw5, State.setIe]; split <;> simp)
  · obtain ⟨-, rfl⟩ | ⟨-, -, rfl⟩ | ⟨-, -, rfl⟩ := shfStep_cases h <;> exact ⟨rfl, rfl⟩
  · obtain ⟨-, -, rfl⟩ | ⟨-, -, -, rfl⟩ | ⟨-, rfl⟩ := irqStep_cases h <;> exact ⟨rfl, rfl⟩

/-- The machine's own run is the run under its own order. -/
theorem runSteps_eq_runFor (n : Nat) (s : State) : runSteps n s = runFor n s.order s := by
  induction n generalizing s with
  | zero => rfl
  | succ n ih =>
    simp only [runSteps, runFor, step_eq_act, State.order]
    cases ha : act s.turn s with
    | next t =>
      obtain ⟨ht, hk⟩ := act_turn_tick ha
      have ho : t.order = fun k => Config.schedule.turn (s.tick + k) := by
        funext k
        cases k with
        | zero => exact ht
        | succ k => simp only [State.order, hk]; congr 1; omega
      simp only [ih, ho]
    | fault f => rfl
    | refused r => rfl

/-- How a weakly fair run gets somewhere. While `P` holds and the goal is not met, some agent other than the host, the
helpful one, has an enabled step; every step keeps `P` or meets the goal; and every step lowers the rank, or leaves the
rank and the helpful agent as they are and is not the helpful agent's. Then the run meets the goal or stops. -/
theorem eventually_of_rank {α : Type} {r : α → α → Prop} (hr : WellFounded r) (P goal : State → Prop)
    (rank : State → α) (helpful : State → Agent)
    (henabled : ∀ s, P s → ¬goal s → helpful s ≠ .host ∧ s.enabled (helpful s) = true)
    (hstep : ∀ a s t, P s → ¬goal s → act a s = .next t →
      goal t ∨ P t ∧ (r (rank t) (rank s) ∨ rank t = rank s ∧ helpful t = helpful s ∧ a ≠ helpful s))
    {order : Nat → Agent} {s : State} (hf : WeaklyFair order s) (hs : P s) :
    Eventually order goal s ∨ Stops order s := by
  induction hk : rank s using hr.induction generalizing order s with
  | _ k ih =>
    subst hk
    by_contra hn
    obtain ⟨hne, hns⟩ := not_or.mp hn
    -- As long as the run lasts it stays at this rank, with the same helpful agent, who never moves.
    have hstay : ∀ n, ∃ t, runFor n order s = .next t ∧ P t ∧ ¬goal t ∧ rank t = rank s ∧ helpful t = helpful s := by
      intro n
      induction n with
      | zero => exact ⟨s, rfl, hs, fun hg => hne ⟨0, s, rfl, hg⟩, rfl, rfl⟩
      | succ n ihn =>
        obtain ⟨t, ht, hPt, hgt, hkt, hht⟩ := ihn
        have hn1 := runFor_succ ht
        cases ha : act (order n) t with
        | fault f => exact absurd ⟨n + 1, fun u => by rw [hn1, ha]; simp⟩ hns
        | refused f => exact absurd ⟨n + 1, fun u => by rw [hn1, ha]; simp⟩ hns
        | next u =>
          rw [ha] at hn1
          obtain hg | ⟨hPu, hlt | ⟨hku, hhu, -⟩⟩ := hstep _ t u hPt hgt ha
          · exact absurd ⟨n + 1, u, hn1, hg⟩ hne
          · obtain he | hst := ih (rank u) (hkt ▸ hlt) (hf.rest hn1) hPu rfl
            · exact absurd (he.of_rest hn1) hne
            · exact absurd (hst.of_rest hn1) hns
          · exact ⟨u, hn1, hPu, fun hg => hne ⟨n + 1, u, hn1, hg⟩, hku.trans hkt, hhu.trans hht⟩
    obtain ⟨m, -, hm⟩ := hf (helpful s) (henabled s hs (fun hg => hne ⟨0, s, rfl, hg⟩)).1 0 (fun m _ => by
      obtain ⟨t, ht, hPt, hgt, -, hht⟩ := hstay m
      exact ⟨t, ht, hht ▸ (henabled t hPt hgt).2⟩)
    obtain ⟨t, ht, hPt, hgt, hkt, hht⟩ := hstay m
    have hm1 := runFor_succ ht
    cases ha : act (order m) t with
    | fault f => exact hns ⟨m + 1, fun u => by rw [hm1, ha]; simp⟩
    | refused f => exact hns ⟨m + 1, fun u => by rw [hm1, ha]; simp⟩
    | next u =>
      rw [ha] at hm1
      obtain hg | ⟨hPu, hlt | ⟨-, -, hne'⟩⟩ := hstep _ t u hPt hgt ha
      · exact hne ⟨m + 1, u, hm1, hg⟩
      · obtain he | hst := ih (rank u) (hkt ▸ hlt) (hf.rest hm1) hPu rfl
        · exact hne (he.of_rest hm1)
        · exact hns (hst.of_rest hm1)
      · exact hne' (hm.trans hht.symm)

end Sys2Proof.Machine
end

