-- ==== Sys2Proof/Laws/PerInstr.lean ====
section
/-! SUPPORT. The written form of an operation (30_encoding.md R64), per instruction: it fits its fields, and reading it
gives the operation back. -/

namespace Sys2Proof.Laws.WrittenForm

/-- The operation is well formed, and the assembler reads what it is written as as that operation. -/
def Statement (i : Instr) : Prop := i.wf = true ∧ assemble i.toAsm = some i

theorem init (clksel : ClkSel) (rate : Rate) (ckph ckpl : Bool) : Statement (.init clksel rate ckph ckpl) := by
  have h1 := clksel.isLt
  have h2 := rate.isLt
  cases ckph <;> cases ckpl <;> simp_all [Statement, Instr.wf, Instr.toAsm, AsmLine.wf, assemble]

theorem sendbuf (count : Count) : Statement (.sendbuf count) := by
  have h := count.isLt
  simp_all [Statement, Instr.wf, Instr.toAsm, AsmLine.wf, assemble]

theorem sendbyte (byte : Byte) : Statement (.sendbyte byte) := by
  have h := byte.isLt
  simp_all [Statement, Instr.wf, Instr.toAsm, AsmLine.wf, assemble]

theorem recvbuf (count : Count) : Statement (.recvbuf count) := by
  have h := count.isLt
  simp_all [Statement, Instr.wf, Instr.toAsm, AsmLine.wf, assemble]

theorem recvbyte : Statement .recvbyte := ⟨rfl, rfl⟩

theorem sarecv (regaddr : Byte) (count : Count) : Statement (.sarecv regaddr count) := by
  have h1 := regaddr.isLt
  have h2 := count.isLt
  simp_all [Statement, Instr.wf, Instr.toAsm, AsmLine.wf, assemble]

theorem sarecvb (regaddr : Byte) : Statement (.sarecvb regaddr) := by
  have h := regaddr.isLt
  simp_all [Statement, Instr.wf, Instr.toAsm, AsmLine.wf, assemble]

end Sys2Proof.Laws.WrittenForm
end

