-- ==== Sys2Proof/Laws/Run.lean ====
section
/-! SUPPORT. What the shared `operate` and the clock selection can answer, and the settling delays as runs
(45_register_read.md R123, R126). -/

namespace Sys2Proof.Machine

/-- What the next step of an operation can be (30_encoding.md R59). -/
theorem operate_cases {op : Opcode} {issued s t : State} (h : operate op issued s = .next t) :
    (s.ph = .idle ∧ t = issued) ∨ (s.ph ≠ .idle ∧ s.opc = op ∧ SeqCase s t) ∨ (s.ph ≠ .idle ∧ s.opc ≠ op ∧ t = s) := by
  unfold operate at h
  split_ifs at h with hp ho
  · cases h; exact .inl ⟨hp, rfl⟩
  · exact .inr (.inl ⟨hp, ho, seqStep_cases h⟩)
  · cases h; exact .inr (.inr ⟨hp, ho, rfl⟩)

/-- The clock source selected is the code if recognized, else the default (40_configuration.md R71). -/
theorem selectClock_cases (p : ClockParams) (c : ClkSel) :
    (p.recognized c = true ∧ selectClock p c = c) ∨ (p.recognized c = false ∧ selectClock p c = p.default) := by
  unfold selectClock
  cases p.recognized c <;> simp

/-- Counting down the first settling delay from `n` takes `n + 1` steps of the sequencer. -/
theorem runAgents_rrDly1 (n : Nat) (s : State) (hp : s.ph = .rrDly1) (hw : s.wait = false) (hd : s.dly = n) :
    ∃ turn tick, runAgents (List.replicate (n + 1) .seq) s =
      .next { s with dly := 0, ph := .rrLoop, turn := turn, tick := tick } := by
  induction n generalizing s with
  | zero =>
    refine ⟨Config.schedule.turn s.tick, s.tick + 1, ?_⟩
    simp [runAgents, act, agentStep, seqStep, State.advance, State.rrDly1, hp, hw, hd]
  | succ n ih =>
    obtain ⟨turn, tick, h⟩ := ih { s.advance with dly := n } hp hw rfl
    refine ⟨turn, tick, ?_⟩
    have hs : act .seq s = .next { s.advance with dly := n } := by
      simp [act, agentStep, seqStep, State.advance, State.rrDly1, hp, hw, hd]
    rw [List.replicate_succ]
    simp only [runAgents, hs]
    exact h

/-- Counting down the second settling delay from `n` takes `n + 1` steps of the sequencer and advances. -/
theorem runAgents_rrDly2 (n : Nat) (s : State) (hp : s.ph = .rrDly2) (hw : s.wait = false) (hd : s.dly = n) :
    ∃ turn tick, runAgents (List.replicate (n + 1) .seq) s =
      .next { s with dly := 0, idx := s.idx + 1, ph := .rrLoop, turn := turn, tick := tick } := by
  induction n generalizing s with
  | zero =>
    refine ⟨Config.schedule.turn s.tick, s.tick + 1, ?_⟩
    simp [runAgents, act, agentStep, seqStep, State.advance, State.rrDly2, State.nextIdx, hp, hw, hd]
  | succ n ih =>
    obtain ⟨turn, tick, h⟩ := ih { s.advance with dly := n } hp hw rfl
    refine ⟨turn, tick, ?_⟩
    have hs : act .seq s = .next { s.advance with dly := n } := by
      simp [act, agentStep, seqStep, State.advance, State.rrDly2, hp, hw, hd]
    rw [List.replicate_succ]
    simp only [runAgents, hs]
    exact h

end Sys2Proof.Machine
end

