-- ==== Sys2Proof/Laws/Serial.lean ====
section
/-! SUPPORT. The bits of one clock period (41_bus_controller_shifter.md R83). -/

namespace Sys2Proof.Machine

/-- The bit put on data-out is bit 7. -/
@[simp] theorem Serial.clockPeriod_out (r : Byte) (x : Bool) : (Serial.clockPeriod r x).1 = r.getLsbD 7 := rfl

/-- The sampled bit enters at bit 0, the others move up by one. -/
theorem Serial.clockPeriod_bit (r : Byte) (x : Bool) (i : Nat) (h : i < 8) :
    (Serial.clockPeriod r x).2.getLsbD i = if i = 0 then x else r.getLsbD (i - 1) := by
  show BitVec.getLsbD (r.extractLsb' 0 7 ++ BitVec.ofBool x) i = _
  rw [BitVec.getLsbD_append]
  obtain rfl | hi := Nat.eq_zero_or_pos i
  · simp
  · have h1 : i - 1 < 7 := by omega
    simp [show ¬i < 1 by omega, show i ≠ 0 by omega, h1]

/-- The same in the form `simp` brings a bit of a byte to. -/
@[simp] theorem Serial.clockPeriod_get (r : Byte) (x : Bool) (i : Nat) (h : i < 8) :
    (Serial.clockPeriod r x).2[i] = if i = 0 then x else r.getLsbD (i - 1) := by
  rw [← BitVec.getLsbD_eq_getElem, Serial.clockPeriod_bit r x i h]

/-- The byte whose bits are sent is that byte: bit `k` in the order of the bus is bit `7 - k`. -/
theorem Serial.bits_get (b : Byte) (k : Fin 8) : (Serial.bits b)[k.val]? = some (b.getLsbD (7 - k.val)) := by
  fin_cases k <;> rfl

end Sys2Proof.Machine
end

