-- ==== Sys2Proof/Tests/Slice0.lean ====
section
/-! SUPPORT. The tests, with expected results from the spec's vectors (95_test_vectors.md), and for every statement with
hypotheses a witness: a concrete state and operands that meet them all. -/

namespace Sys2Proof.Tests

open Sys2Proof Sys2Proof.Machine

/-! ## Decoding: the words of 95_test_vectors.md E -/

theorem test_decode_init : decode 0x140F4240 = .ok (.init 1 1000000 false false) := by decide
theorem test_decode_init_all_fields : decode 0x1F07A120 = .ok (.init 3 500000 true true) := by decide
theorem test_decode_init_polarity : decode 0x11000000 = .ok (.init 0 0 false true) := by decide
theorem test_decode_init_phase : decode 0x1AFFFFFF = .ok (.init 2 16777215 true false) := by decide
theorem test_decode_sendbuf : decode 0x20000004 = .ok (.sendbuf 4) := by decide
theorem test_decode_sendbuf_top : decode 0x2000FFFF = .ok (.sendbuf 65535) := by decide
theorem test_decode_sendbyte : decode 0x300000AA = .ok (.sendbyte 0xAA) := by decide
theorem test_decode_recvbuf : decode 0x40000002 = .ok (.recvbuf 2) := by decide
theorem test_decode_recvbyte : decode 0x50000000 = .ok .recvbyte := by decide
theorem test_decode_sarecv : decode 0x60000305 = .ok (.sarecv 0x05 3) := by decide
theorem test_decode_sarecv_top : decode 0x60FFFFFF = .ok (.sarecv 0xFF 65535) := by decide
theorem test_decode_sarecvb : decode 0x7000000F = .ok (.sarecvb 0x0F) := by decide

theorem test_illegal_opcodes :
    decode 0x00000000 = .error (.opcode 0) ∧ decode 0x80000000 = .error (.opcode 8) ∧
    decode 0xF0000000 = .error (.opcode 15) ∧ decode 0xFFFFFFFF = .error (.opcode 15) := by decide
theorem test_illegal_reserved_bits :
    decode 0x50000001 = .error (.reservedBits 5) ∧ decode 0x20010004 = .error (.reservedBits 2) ∧
    decode 0x30000100 = .error (.reservedBits 3) ∧ decode 0x61000305 = .error (.reservedBits 6) ∧
    decode 0x70001000 = .error (.reservedBits 7) ∧ decode 0x40010000 = .error (.reservedBits 4) := by decide

/-- No word selects two rows of the opcode map (30_encoding.md R58). -/
theorem test_rows_are_disjoint :
    opcodeMap.Pairwise (fun a b => a.pattern &&& (a.mask &&& b.mask) ≠ b.pattern &&& (a.mask &&& b.mask)) := by decide

theorem test_encode :
    encode (.init 3 500000 true true) = 0x1F07A120 ∧ encode (.sendbuf 4) = 0x20000004 ∧
    encode (.sendbyte 0xAA) = 0x300000AA ∧ encode (.recvbuf 2) = 0x40000002 ∧ encode .recvbyte = 0x50000000 ∧
    encode (.sarecv 0x05 3) = 0x60000305 ∧ encode (.sarecvb 0x0F) = 0x7000000F := by decide

/-! ## WellFormed: an ill-formed command for each check -/

theorem test_wf_init : AsmLine.wf ⟨.init, [3, 16777215, 1, 1]⟩ = true := by decide
theorem test_ill_formed_init :
    AsmLine.wf ⟨.init, [4, 0, 0, 0]⟩ = false ∧ AsmLine.wf ⟨.init, [0, 16777216, 0, 0]⟩ = false ∧
    AsmLine.wf ⟨.init, [0, 0, 2, 0]⟩ = false ∧ AsmLine.wf ⟨.init, [0, 0, 0, 2]⟩ = false ∧
    AsmLine.wf ⟨.init, [0, 0, 0]⟩ = false := by decide
theorem test_ill_formed_send :
    AsmLine.wf ⟨.sendbuf, [65536]⟩ = false ∧ AsmLine.wf ⟨.sendbyte, [256]⟩ = false ∧
    AsmLine.wf ⟨.sendbuf, []⟩ = false := by decide
theorem test_ill_formed_receive :
    AsmLine.wf ⟨.recvbuf, [65536]⟩ = false ∧ AsmLine.wf ⟨.recvbyte, [0]⟩ = false := by decide
theorem test_ill_formed_register_read :
    AsmLine.wf ⟨.sarecv, [256, 0]⟩ = false ∧ AsmLine.wf ⟨.sarecv, [0, 65536]⟩ = false ∧
    AsmLine.wf ⟨.sarecvb, [256]⟩ = false := by decide
/-- An ill-formed command has no operation; in particular its operand is not cut to its field (91 N5). -/
theorem test_assemble :
    assemble ⟨.sarecv, [5, 3]⟩ = some (.sarecv 5 3) ∧ assemble ⟨.sendbuf, [65536]⟩ = none := by decide

/-! ## States and checks for what follows -/

/-- A clean state (70_reset_and_hazards.md R160). -/
def idleState : State := { State.reset with en := true, mst := true, m3w := true, gie := true }

/-- The state after V2: clean but for a pending receive-full flag. -/
def sentState : State :=
  { idleState with ifgRxf := true, rxbuf := 0x5C, txbuf := 0xAA, shreg := 0xAA, txlog := [0xAA], wire := [(0xAA, 0x5C)],
                   opc := 3, cnt := 1, idx := 1, adr := 0xAA, ret := .sbNext }

/-- An operation in progress in the given phase, one byte of `n` to go. -/
def running (op : Opcode) (n : Count) (p : Phase) : State := { idleState with opc := op, cnt := n, adr := 0xAA, ph := p }

/-- A wait for `k` in phase AW5, armed, with the wait state held. -/
def waiting (op : Opcode) (k : Event) (p : Phase) : State :=
  { (running op 1 .aw5).setIe k true with evk := k, ret := p, wait := true }

/-- The hang of V4 row 3. -/
def hungState : State := { waiting 4 .rxf .rbStore with cnt := 2 }

/-- The result is a next state that passes the check. -/
def nextIs (r : Result) (check : State → Bool) : Bool :=
  match r with
  | .next t => check t
  | .fault _ => false
  | .refused _ => false

/-- The state a run ends in; the start where it stops. -/
def after (order : List Agent) (s : State) : State :=
  match runAgents order s with
  | .next t => t
  | .fault _ => s
  | .refused _ => s

theorem reaches_after {order : List Agent} {s : State} (ho : Agent.host ∉ order)
    (h : nextIs (runAgents order s) (fun _ => true) = true) : Reaches s (after order s) := by
  refine ⟨order, ho, ?_⟩
  unfold after
  cases hr : runAgents order s with
  | next t => rfl
  | fault f => rw [hr] at h; cases h
  | refused r => rw [hr] at h; cases h

theorem exists_next {r : Result} (h : nextIs r (fun _ => true) = true) : ∃ t, r = .next t := by
  cases r with
  | next t => exact ⟨t, rfl⟩
  | fault f => cases h
  | refused r => cases h

/-! ## One step each: INIT (V1) -/

/-- V1 row 1: `INIT 1, 1_000_000, 0, 0` with stale flags. -/
theorem test_init_row1 :
    let t := State.configure (Config.exampleClock 1)
      { State.reset with ifgTxe := true, ifgRxf := true, ph := .cfInit, held := ⟨1, 1000000, false, false⟩ }
    t.clksel = 1 ∧ t.brdiv = 8 ∧ t.en = true ∧ t.mst = true ∧ t.m3w = true ∧ t.msbf = true ∧ t.ifgTxe = false ∧
      t.ifgRxf = false ∧ t.ph = .idle := by decide

/-- V1 rows 2 to 5: the fallback, rate 0, and the divider's two clamps. -/
theorem test_init_divider :
    let t (clksel : ClkSel) (rate : Rate) : State :=
      State.configure (Config.exampleClock 7) { State.reset with held := ⟨clksel, rate, true, true⟩ }
    (t 3 500000).clksel = 2 ∧ (t 3 500000).brdiv = 2 ∧ (t 0 0).brdiv = 7 ∧ (t 2 16777215).brdiv = 1 ∧
      (t 1 100).brdiv = 65535 ∧ (t 3 500000).ckph = true ∧ (t 3 500000).ckpl = true := by decide

/-! ## SENDBUF and SENDBYTE (V2, V3) -/

theorem test_sendbyte_write :
    nextIs (exec (.sendbyte 0xAA) (running 3 1 .sbLoop)) (fun t => t.txbuf == 0xAA && t.txfull && t.txlog == [0xAA] &&
      t.evk == .txe && t.ret == .sbNext && t.ph == .aw1) = true := by decide
theorem test_sendbyte_poll :
    nextIs (exec (.sendbyte 0xAA) { running 3 1 .sbPoll with busy := true }) (fun t => t.ph == .sbPoll) = true ∧
    nextIs (exec (.sendbyte 0xAA) (running 3 1 .sbPoll)) (fun t => t.ph == .idle) = true := by decide
/-- V3 line 9: byte 2 of `[0x01, 0x02, 0x03]`. -/
theorem test_sendbuf_write :
    nextIs (exec (.sendbuf 3)
        { running 2 3 .sbLoop with buf := Memory.ofBytes 0 [0x01, 0x02, 0x03], bufcap := 3, idx := 2, txlog := [1, 2] })
      (fun t => t.txbuf == 0x03 && t.txlog == [0x01, 0x02, 0x03] && t.ph == .aw1) = true := by decide
/-- V12: `SENDBUF 3` with BUFCAP = 2. -/
theorem test_sendbuf_capacity :
    exec (.sendbuf 3) { running 2 3 .sbLoop with buf := Memory.ofBytes 0 [0x01, 0x02], bufcap := 2, idx := 2 } =
      .fault (.bufferRead 2) := rfl

/-! ## RECVBUF and RECVBYTE (V4, V5) -/

theorem test_recvbyte_store :
    nextIs (exec .recvbyte { running 5 1 .rbStore with rxbuf := 0x5C })
      (fun t => t.res == 0x5C && t.idx == 1 && t.ph == .rbLoop && t.buf == []) = true := by decide
theorem test_recvbyte_return :
    nextIs (exec .recvbyte { running 5 1 .rbLoop with idx := 1 }) (fun t => t.ph == .idle) = true := by decide
theorem test_recvbuf_store :
    nextIs (exec (.recvbuf 2) { running 4 2 .rbStore with rxbuf := 0x5C })
      (fun t => t.buf == [(0, 0x5C)] && t.res == 0 && t.idx == 1) = true := by decide
theorem test_recvbuf_wait :
    nextIs (exec (.recvbuf 2) (running 4 2 .rbLoop))
      (fun t => t.evk == .rxf && t.ret == .rbStore && t.ph == .aw1 && t.txlog == []) = true := by decide

/-! ## SARECV and SARECVB (V6, V7) -/

theorem test_sarecv_address :
    nextIs (exec (.sarecv 0xAA 3) (running 6 3 .rrAddr))
      (fun t => t.txlog == [0xAA] && t.txfull && t.evk == .rxf && t.ret == .rrDisc && t.ph == .aw1) = true := by decide
/-- V12: `SARECV 0x05, 3` with BUFCAP = 2; and V6 line 19 with BUFCAP = 3. -/
theorem test_sarecv_store :
    exec (.sarecv 5 3) { running 6 3 .rrStore with idx := 2, bufcap := 2 } = .fault (.bufferWrite 2) ∧
    nextIs (exec (.sarecv 5 3) { running 6 3 .rrStore with idx := 2, bufcap := 3, rxbuf := 0x33 })
      (fun t => t.buf == [(2, 0x33)] && t.evk == .txe && t.ret == .rrSet2 && t.idx == 2) = true := ⟨rfl, rfl⟩
theorem test_sarecvb_dummy :
    nextIs (exec (.sarecvb 0xAA) (running 7 1 .rrLoop))
      (fun t => t.txlog == [0x00] && t.txbuf == 0x00 && t.ret == .rrStore && t.evk == .rxf) = true := by decide
theorem test_sarecvb_store :
    nextIs (exec (.sarecvb 0x0F) { running 7 1 .rrStore with rxbuf := 0x3C })
      (fun t => t.res == 0x3C && t.buf == [] && t.ret == .rrSet2) = true := by decide

/-! ## The shifter (VS), the handler (V9), the step -/

/-- VS rows 2 to 6. -/
theorem test_shifter :
    nextIs (act .shf { idleState with txbuf := 0xAA, txfull := true })
      (fun t => t.shreg == 0xAA && !t.txfull && t.busy && t.ifgTxe) = true ∧
    State.complete 0x5C { idleState with shreg := 0xAA, busy := true } =
      { idleState with shreg := 0xAA, wire := [(0xAA, 0x5C)], rxbuf := 0x5C, ifgRxf := true } ∧
    State.canLoad { idleState with busy := true, txfull := true } = false ∧
    State.canLoad { idleState with en := false, txfull := true } = false := by decide
/-- VS row 9: the bit level of 0xAA against 0x5C. -/
theorem test_bit_level :
    Serial.exchange 0xAA [false, true, false, true, true, true, false, false] =
      ([true, false, true, false, true, false, true, false], 0x5C) := by decide
/-- V9, rows 1 to 7: IV by IE.TXE, IE.RXF, IFG.TXE, IFG.RXF. -/
theorem test_iv :
    let iv (ieT ieR ifgT ifgR : Bool) : Nat :=
      State.iv { idleState with ieTxe := ieT, ieRxf := ieR, ifgTxe := ifgT, ifgRxf := ifgR }
    iv false false true true = 0 ∧ iv true false true false = 4 ∧ iv true false true true = 4 ∧
      iv false true true true = 2 ∧ iv true false false true = 0 ∧ iv false true true false = 0 ∧
      iv true true true true = 2 := by decide
/-- V9 rows 3 and 5: the other source's flag stays, and does not end the wait. -/
theorem test_handler :
    nextIs (act .irq { waiting 3 .txe .sbNext with ifgTxe := true, ifgRxf := true })
      (fun t => !t.ifgTxe && t.ifgRxf && !t.wait && t.gie && t.ph == .aw5) = true ∧
    nextIs (act .irq { waiting 3 .txe .sbNext with ifgRxf := true }) (fun t => t.ifgRxf && t.wait) = true := by decide
/-- The command the host's check presents is issued by the very next step. -/
theorem test_first_step :
    nextIs (step (State.reset.withFetchWord 32 0x60000305))
      (fun t => t.opc == 6 && t.cnt == 3 && t.adr == 5 && t.ph == .rrAddr && t.port == none) = true := by decide

/-! ## Witnesses: encoding and issue -/

theorem witness_DecodeEncodeRoundTrip :
    (Instr.init 3 0xFFFFFF true true).wf = true ∧ (Instr.sendbuf 65535).wf = true ∧ (Instr.sendbyte 255).wf = true ∧
    (Instr.recvbuf 65535).wf = true ∧ Instr.recvbyte.wf = true ∧ (Instr.sarecv 255 65535).wf = true ∧
    (Instr.sarecvb 255).wf = true := by decide
theorem witness_EncodeDecodeRoundTrip : ∃ i, decode 0x60FFFFFF = .ok i := ⟨.sarecv 0xFF 65535, by decide⟩
theorem witness_IllegalWordIsRefused :
    ∃ s : State, s.turn = .host ∧ s.ph = .idle ∧ s.port = some 0x50000001 ∧ legalWord 0x50000001 = false :=
  ⟨{ idleState with port := some 0x50000001 }, by decide⟩
theorem witness_IssueLatchesOperands : State.reset.ph = .idle := rfl
theorem witness_StepRunsDecodedInstruction :
    (∃ (s : State) (w : Word) (i : Instr), s.turn = .host ∧ s.ph = .idle ∧ s.port = some w ∧ decode w = .ok i ∧
      i.wf = true) ∧
    (∃ (s : State) (i : Instr), s.turn = .seq ∧ s.ph ≠ .idle ∧ s.opc = i.opcode) :=
  ⟨⟨{ idleState with port := some 0x50000000 }, 0x50000000, .recvbyte, by decide⟩,
   ⟨{ running 5 1 .rbLoop with turn := .seq }, .recvbyte, by decide⟩⟩
theorem witness_RunningOperationBlocksHost :
    ∃ s : State, s.ph ≠ .idle ∧ s.turn = .host ∧ s.opc ≠ Instr.opcode (.sendbuf 1) :=
  ⟨running 5 1 .rbLoop, by decide⟩

/-! ## Witnesses: INIT -/

theorem witness_InitConfiguresController : State.reset.ph = .idle ∧ State.reset.wait = false := by decide
theorem witness_InitIsIdempotent :
    ∃ s s1 s2 s3 s4 : State, s.ph = .idle ∧ s.wait = false ∧ exec (.init 3 0 true true) s = .next s1 ∧
      exec (.init 3 0 true true) s1 = .next s2 ∧ exec (.init 3 0 true true) s2 = .next s3 ∧
      exec (.init 3 0 true true) s3 = .next s4 :=
  ⟨State.reset, _, _, _, _, rfl, rfl, rfl, rfl, rfl, rfl⟩
theorem reset_quiet : State.reset.quiet := ⟨rfl, rfl, rfl, rfl, rfl, rfl⟩
theorem witness_InitEndsClean : ∃ s : State, s.quiet := ⟨State.reset, reset_quiet⟩
theorem witness_InitLeavesDataPath :
    (∃ s t : State, s.ph = .cfInit ∧ s.wait = false ∧ s.opc = 1 ∧ exec (.init 0 0 false false) s = .next t ∧
      s.busy = true) ∧
    (∃ s t : State, s.ph = .cfInit ∧ s.wait = false ∧ s.opc = 1 ∧ exec (.init 0 0 false false) s = .next t ∧
      s.busy = false ∧ s.txfull = true) :=
  ⟨⟨{ running 1 0 .cfInit with busy := true }, _, rfl, rfl, rfl, rfl, rfl⟩,
   ⟨{ running 1 0 .cfInit with txfull := true }, _, rfl, rfl, rfl, rfl, rfl, rfl⟩⟩

/-! ## Witnesses: the shifter -/

theorem witness_ShifterLoadsByte :
    ∃ s : State, s.turn = .shf ∧ s.en = true ∧ s.txfull = true ∧ s.busy = false :=
  ⟨{ idleState with turn := .shf, txfull := true }, by decide⟩
theorem witness_ShifterCompletesExchange : ∃ s : State, s.turn = .shf ∧ s.en = true ∧ s.busy = true :=
  ⟨{ idleState with turn := .shf, busy := true }, by decide⟩
theorem witness_ShifterIdlesWithoutWork :
    (∃ s : State, s.turn = .shf ∧ s.en = false ∧ s.txfull = true) ∧
    (∃ s : State, s.turn = .shf ∧ s.en = true ∧ s.txfull = false ∧ s.busy = false) :=
  ⟨⟨{ State.reset with turn := .shf, txfull := true }, by decide⟩, ⟨{ idleState with turn := .shf }, by decide⟩⟩

theorem witness_BitLevelMatchesByteLevel : ∃ s : State, s.en = true ∧ s.busy = true :=
  ⟨{ idleState with busy := true, shreg := 0xAA }, by decide⟩

/-! ## Witnesses: the synchronization primitive and the handler -/

/-- Every run in which SEQ, SHF and IRQ take turns is weakly fair, and so is the machine's own. -/
theorem rotation_weaklyFair (s : State) : WeaklyFair rotation s := .of_fairOrder rotation_fair s
theorem test_own_run_weaklyFair (s : State) : WeaklyFair s.order s := .of_fairOrder s.order_fair s
/-- A run in which SEQ, with a step enabled all along, never moves is not weakly fair. -/
theorem test_unfair_order (s : State) (hp : s.ph = .aw1) (hw : s.wait = false) : ¬WeaklyFair (fun _ => .host) s := by
  have hk : ∀ (m : Nat) (s : State), s.ph = .aw1 → s.wait = false →
      ∃ t, runFor m (fun _ => .host) s = .next t ∧ t.enabled .seq = true := by
    intro m
    induction m with
    | zero => intro s hp hw; exact ⟨s, rfl, by simp [State.enabled, State.ready, hp, hw]⟩
    | succ m ih =>
      intro s hp hw
      have ha : act .host s = .next s.advance := by simp [act, agentStep, hostStep, State.ready, hp, show (Phase.aw1 == Phase.idle) = false from rfl]
      simp only [runFor, ha]
      exact ih _ hp hw
  intro h
  obtain ⟨m, -, hm⟩ := h .seq (by decide) 0 (fun m _ => hk m s hp hw)
  cases hm

theorem reset_armInv : State.reset.ArmInv :=
  ⟨by intro k; cases k <;> decide, by decide, by decide, by decide, by decide⟩

theorem waiting_armInv : (waiting 3 .txe .sbNext).ArmInv :=
  ⟨by intro k; cases k <;> decide, by decide, by decide, by decide, by decide⟩

/-- As `waiting`, one step earlier. -/
def arming : State := { (running 3 1 .aw3).setIe .txe true with evk := .txe, ret := .sbNext, gie := false }

theorem arming_armInv : { arming with ifgTxe := true }.ArmInv :=
  ⟨by intro k; cases k <;> decide, by decide, by decide, by decide, by decide⟩

theorem witness_ArmAndWaitSteps :
    (∃ (s : State) (i : Instr), s.opc = i.opcode ∧ s.wait = false ∧ s.ph = .aw1) ∧
    (∃ (s : State) (i : Instr), s.opc = i.opcode ∧ s.wait = false ∧ s.ph = .aw2 ∧ s.evk = .txe) ∧
    (∃ (s : State) (i : Instr), s.opc = i.opcode ∧ s.wait = false ∧ s.ph = .aw2 ∧ s.evk = .rxf) ∧
    (∃ (s : State) (i : Instr), s.opc = i.opcode ∧ s.wait = false ∧ s.ph = .aw3 ∧ s.ArmInv ∧ s.ifg s.evk = true) ∧
    (∃ (s : State) (i : Instr), s.opc = i.opcode ∧ s.wait = false ∧ s.ph = .aw2 ∧ s.ArmInv) ∧
    (∃ (s : State) (i : Instr), s.opc = i.opcode ∧ s.wait = false ∧ s.ph = .aw5 ∧ s.evk = .rxf) ∧
    (∃ (s : State) (i : Instr), s.opc = i.opcode ∧ s.wait = false ∧ s.ph = .aw5 ∧ s.evk = .txe ∧ s.ArmInv) :=
  ⟨⟨running 5 1 .aw1, .recvbyte, by decide⟩, ⟨running 3 1 .aw2, .sendbyte 0, by decide⟩,
   ⟨{ running 5 1 .aw2 with evk := .rxf }, .recvbyte, by decide⟩,
   ⟨{ arming with ifgTxe := true }, .sendbyte 0, rfl, rfl, rfl, arming_armInv, rfl⟩,
   ⟨{ running 7 1 .aw2 with evk := .rxf, ret := .rrDisc, gie := false }, .sarecvb 0, rfl, rfl, rfl,
     ⟨by intro k; cases k <;> decide, by decide, by decide, by decide, by decide⟩⟩,
   ⟨{ running 5 1 .aw5 with evk := .rxf }, .recvbyte, by decide⟩,
   ⟨{ waiting 3 .txe .sbNext with wait := false }, .sendbyte 0, rfl, rfl, rfl, rfl,
    ⟨by intro k; cases k <;> decide, by decide, by decide, by decide, by decide⟩⟩⟩

theorem witness_OnlyHandlerEndsWait :
    (∃ s t : State, s.wait = true ∧ step s = .next t ∧ s.turn = .seq) ∧
    (∃ s t : State, s.wait = true ∧ step s = .next t ∧ t.wait = false) :=
  ⟨⟨{ waiting 3 .txe .sbNext with turn := .seq }, _, rfl, rfl, rfl⟩,
   ⟨{ waiting 3 .txe .sbNext with turn := .irq, ifgTxe := true }, _, rfl, rfl, rfl⟩⟩

theorem witness_HandlerTakesItsCase :
    (∃ s : State, s.turn = .irq ∧ s.gie = true ∧ s.ifgRxf = true ∧ s.ieRxf = true ∧ s.ifgTxe = true) ∧
    (∃ s : State, s.turn = .irq ∧ s.gie = true ∧ (s.ifgRxf = false ∨ s.ieRxf = false) ∧ s.ifgTxe = true ∧
      s.ieTxe = true) ∧
    (∃ s : State, s.turn = .irq ∧ s.gie = true ∧ (s.ifgRxf = false ∨ s.ieRxf = false) ∧
      (s.ifgTxe = false ∨ s.ieTxe = false)) ∧
    (∃ s : State, s.turn = .irq ∧ s.gie = false) :=
  ⟨⟨{ waiting 5 .rxf .rbStore with turn := .irq, ifgRxf := true, ifgTxe := true }, by decide⟩,
   ⟨{ waiting 3 .txe .sbNext with turn := .irq, ifgRxf := true, ifgTxe := true }, by decide⟩,
   ⟨{ waiting 3 .txe .sbNext with turn := .irq, ifgRxf := true }, by decide⟩,
   ⟨{ State.reset with turn := .irq }, by decide⟩⟩

/-- During the wait, the handler's turn, and in phase AW3 with the flag already raised, also under a fair order. -/
theorem witness_NoLostWakeup :
    (∃ s t : State, s.ArmInv ∧ (s.ph = .aw3 ∨ (s.ph = .aw5 ∧ s.wait = true)) ∧ s.ifg s.evk = true ∧ step s = .next t ∧
      s.wait = true) ∧
    (∃ s t : State, s.ArmInv ∧ (s.ph = .aw3 ∨ (s.ph = .aw5 ∧ s.wait = true)) ∧ s.ifg s.evk = true ∧ step s = .next t ∧
      s.wait = false) ∧
    (∃ (s : State) (order : Nat → Agent), s.ArmInv ∧ (s.ph = .aw3 ∨ (s.ph = .aw5 ∧ s.wait = true)) ∧ s.ifg s.evk = true ∧
      WeaklyFair order s) :=
  ⟨⟨{ waiting 3 .txe .sbNext with ifgTxe := true, turn := .irq }, _,
     ⟨by intro k; cases k <;> decide, by decide, by decide, by decide, by decide⟩, .inr ⟨rfl, rfl⟩, rfl, rfl, rfl⟩,
   ⟨{ arming with ifgTxe := true, turn := .seq }, _,
     ⟨by intro k; cases k <;> decide, by decide, by decide, by decide, by decide⟩, .inl rfl, rfl, rfl, rfl⟩,
   ⟨{ arming with ifgTxe := true }, rotation, arming_armInv, .inl rfl, rfl, rotation_weaklyFair _⟩⟩

theorem witness_NoSpuriousReturn :
    (∃ s t : State, s.ArmInv ∧ step s = .next t ∧ s.ph.inWait = true ∧ s.released = false ∧ t.released = true) ∧
    (∃ s t : State, s.ArmInv ∧ step s = .next t ∧ s.ph = .aw5 ∧ t.ph ≠ .aw5) :=
  ⟨⟨{ waiting 3 .txe .sbNext with ifgTxe := true, turn := .irq }, _,
     ⟨by intro k; cases k <;> decide, by decide, by decide, by decide, by decide⟩, rfl, rfl, rfl, rfl⟩,
   ⟨{ waiting 3 .txe .sbNext with wait := false, turn := .seq }, _,
     ⟨by intro k; cases k <;> decide, by decide, by decide, by decide, by decide⟩, rfl, rfl, by decide⟩⟩

theorem witness_ArmingInvariantKept :
    ∃ s t : State, s.ArmInv ∧ step s = .next t ∧ t.ph ≠ s.ph :=
  ⟨{ State.reset with port := some 0x2000FFFF }, _,
   ⟨by intro k; cases k <;> decide, by decide, by decide, by decide, by decide⟩, rfl, by decide⟩

theorem reset_powerOn : State.reset.powerOn := ⟨rfl, rfl, rfl, rfl, rfl, rfl, rfl, rfl, rfl, rfl⟩
theorem witness_ArmingInvariantAtPowerOn : ∃ s : State, s.powerOn := ⟨State.reset, reset_powerOn⟩
theorem witness_ExactlyAwaitedSourceArmed : ∃ s : State, s.ArmInv ∧ s.wait = true :=
  ⟨waiting 3 .txe .sbNext, waiting_armInv, rfl⟩

/-! ## Witnesses: SENDBUF and SENDBYTE -/

theorem witness_SendLoopWritesNextByte :
    (∃ s : State, s.ph = .sbLoop ∧ s.wait = false ∧ s.opc = 3 ∧ s.idx < s.cnt) ∧
    (∃ s : State, s.ph = .sbLoop ∧ s.wait = false ∧ s.opc = 2 ∧ s.idx < s.cnt ∧ s.idx.toNat < s.bufcap) ∧
    (∃ s : State, s.ph = .sbLoop ∧ s.wait = false ∧ s.opc = 3 ∧ s.cnt ≤ s.idx) ∧
    (∃ s : State, s.ph = .sbLoop ∧ s.wait = false ∧ s.opc = 2 ∧ s.cnt ≤ s.idx) :=
  ⟨⟨running 3 1 .sbLoop, by decide⟩, ⟨{ running 2 65535 .sbLoop with idx := 65534 }, by decide⟩,
   ⟨{ running 3 1 .sbLoop with idx := 1 }, by decide⟩, ⟨running 2 0 .sbLoop, by decide⟩⟩

theorem witness_SendAdvancesAndPolls :
    (∃ s : State, s.opc = 2 ∧ s.wait = false ∧ s.ph = .sbNext) ∧
    (∃ s : State, s.opc = 3 ∧ s.wait = false ∧ s.ph = .sbPoll ∧ s.busy = true) ∧
    (∃ s : State, s.opc = 3 ∧ s.wait = false ∧ s.ph = .sbPoll ∧ s.busy = false) :=
  ⟨⟨running 2 1 .sbNext, by decide⟩, ⟨{ running 3 1 .sbPoll with busy := true }, by decide⟩,
   ⟨running 3 1 .sbPoll, by decide⟩⟩

theorem witness_LengthZeroReturnsAtOnce :
    (∃ s : State, s.ph = .idle ∧ s.wait = false ∧ s.busy = true) ∧
    (∃ s : State, s.ph = .idle ∧ s.wait = false ∧ s.busy = false) :=
  ⟨⟨{ idleState with busy := true }, by decide⟩, ⟨idleState, by decide⟩⟩

theorem idle_quiet : idleState.quiet := ⟨rfl, rfl, rfl, rfl, rfl, rfl⟩
theorem idle_sendReady : idleState.sendReady := ⟨idle_quiet, rfl, rfl⟩
theorem idle_clean : idleState.clean := ⟨idle_sendReady, rfl⟩
theorem sent_afterSend : sentState.afterSend := ⟨⟨⟨rfl, rfl, rfl, rfl, rfl, rfl⟩, rfl, rfl⟩, rfl⟩

/-- V2, lines 1 to 12 with the COMPLETE before the first poll. -/
def sendOrder : List Agent := [.seq, .seq, .shf, .seq, .seq, .irq, .seq, .seq, .seq, .shf, .seq]

theorem witness_SendBufferTransmitsInOrder :
    ∃ s1 t : State, idleState.sendReady ∧ Issued (.sendbuf 1) idleState s1 ∧ ReturnsIn s1 t :=
  ⟨_, after sendOrder (issueSendbuf 1 idleState), idle_sendReady, ⟨rfl, rfl⟩, reaches_after (by decide) (by decide),
   by decide⟩

theorem witness_SendLeavesReceiveFullPending :
    (∃ s1 t : State, idleState.clean ∧ Issued (.sendbyte 0xAA) idleState s1 ∧ ReturnsIn s1 t) ∧
    (∃ s1 t : State, idleState.clean ∧ (1 : Count) ≤ 1 ∧ Issued (.sendbuf 1) idleState s1 ∧ ReturnsIn s1 t) :=
  ⟨⟨_, after sendOrder (issueSendbyte 0xAA idleState), idle_clean, ⟨rfl, rfl⟩, reaches_after (by decide) (by decide),
     by decide⟩,
   ⟨_, after sendOrder (issueSendbuf 1 idleState), idle_clean, by decide, ⟨rfl, rfl⟩,
     reaches_after (by decide) (by decide), by decide⟩⟩

theorem witness_SendByteMatchesSendBufferOfOne :
    ∃ s s1 s2 t : State, 0 < s.bufcap ∧ Memory.read s.buf 0 = 0xAA ∧ Issued (.sendbyte 0xAA) s s1 ∧
      Issued (.sendbuf 1) s s2 ∧ Agent.host ∉ sendOrder ∧ runAgents sendOrder s1 = .next t := by
  obtain ⟨t, ht⟩ : ∃ t, runAgents sendOrder
      (issueSendbyte 0xAA { idleState with buf := [(0, 0xAA)], bufcap := 1 }) = .next t := exists_next (by decide)
  exact ⟨{ idleState with buf := [(0, 0xAA)], bufcap := 1 }, _, _, t, by decide, rfl, ⟨rfl, rfl⟩, ⟨rfl, rfl⟩, by decide,
    ht⟩

/-! ## Witnesses: RECVBUF and RECVBYTE -/

theorem witness_ReceiveLoopWaitsOrReturns :
    (∃ s : State, s.opc = 4 ∧ s.ph = .rbLoop ∧ s.wait = false ∧ s.idx < s.cnt) ∧
    (∃ s : State, s.opc = 5 ∧ s.ph = .rbLoop ∧ s.wait = false ∧ s.cnt ≤ s.idx) :=
  ⟨⟨{ running 4 65535 .rbLoop with idx := 65534 }, by decide⟩, ⟨{ running 5 1 .rbLoop with idx := 1 }, by decide⟩⟩

theorem witness_ReceiveStoresAtLoopPosition :
    (∃ s : State, s.ph = .rbStore ∧ s.wait = false ∧ s.opc = 5) ∧
    (∃ s : State, s.ph = .rbStore ∧ s.wait = false ∧ s.opc = 4 ∧ s.idx.toNat < s.bufcap) :=
  ⟨⟨running 5 1 .rbStore, by decide⟩, ⟨{ running 4 65535 .rbStore with idx := 65534, bufcap := 65535 }, by decide⟩⟩

theorem witness_ReceiveHangsFromClean :
    (∃ s1 order, idleState.clean ∧ Issued .recvbyte idleState s1 ∧ WeaklyFair order s1) ∧
    (∃ s1 order, idleState.clean ∧ (1 : Count) ≤ 1 ∧ Issued (.recvbuf 1) idleState s1 ∧ WeaklyFair order s1) :=
  ⟨⟨_, rotation, idle_clean, ⟨rfl, rfl⟩, rotation_weaklyFair _⟩,
   ⟨_, rotation, idle_clean, by decide, ⟨rfl, rfl⟩, rotation_weaklyFair _⟩⟩

theorem witness_ReceiveAfterSendTakesStaleByte :
    sentState.afterSend ∧ Memory.wf sentState.buf = true ∧ 0 < sentState.bufcap ∧
    (∃ s1 t order, Issued .recvbyte sentState s1 ∧ ReturnsIn s1 t ∧ WeaklyFair order s1) ∧
    (∃ s1 t order, Issued (.recvbuf 1) sentState s1 ∧ ReturnsIn s1 t ∧ WeaklyFair order s1) ∧
    (∃ s1, (2 : Count) ≤ 2 ∧ Issued (.recvbuf 2) sentState s1 ∧ Reaches s1 s1) :=
  ⟨sent_afterSend, rfl, by decide,
   ⟨_, after [.seq, .seq, .seq, .seq, .irq, .seq, .seq, .seq] (issueRecvbyte sentState), rotation, ⟨rfl, rfl⟩,
     ⟨reaches_after (by decide) (by decide), by decide⟩, rotation_weaklyFair _⟩,
   ⟨_, after [.seq, .seq, .seq, .seq, .irq, .seq, .seq, .seq] (issueRecvbuf 1 sentState), rotation, ⟨rfl, rfl⟩,
     ⟨reaches_after (by decide) (by decide), by decide⟩, rotation_weaklyFair _⟩,
   ⟨_, by decide, ⟨rfl, rfl⟩, Reaches.refl _⟩⟩

/-! ## Witnesses: SARECV and SARECVB -/

theorem witness_RegisterReadSendsAddressAndDiscards :
    (∃ s : State, s.opc = 6 ∧ s.wait = false ∧ s.ph = .rrAddr) ∧
    (∃ s : State, s.opc = 7 ∧ s.wait = false ∧ s.ph = .rrDisc) :=
  ⟨⟨running 6 0 .rrAddr, by decide⟩, ⟨running 7 1 .rrDisc, by decide⟩⟩

theorem witness_RegisterReadHoldsSettlingDelay :
    (∃ s : State, s.opc = 6 ∧ s.wait = false ∧ s.ph = .rrSet1) ∧
    (∃ s : State, s.opc = 6 ∧ s.wait = false ∧ s.ph = .rrDly1 ∧ s.dly ≠ 0) ∧
    (∃ s : State, s.opc = 6 ∧ s.wait = false ∧ s.ph = .rrDly1 ∧ s.dly = 0) ∧
    (∃ s : State, s.opc = 7 ∧ s.wait = false ∧ s.ph = .rrSet2) ∧
    (∃ s : State, s.opc = 7 ∧ s.wait = false ∧ s.ph = .rrDly2 ∧ s.dly ≠ 0) ∧
    (∃ s : State, s.opc = 7 ∧ s.wait = false ∧ s.ph = .rrDly2 ∧ s.dly = 0) :=
  ⟨⟨running 6 1 .rrSet1, by decide⟩, ⟨{ running 6 1 .rrDly1 with dly := 1 }, by decide⟩,
   ⟨running 6 1 .rrDly1, by decide⟩, ⟨running 7 1 .rrSet2, by decide⟩,
   ⟨{ running 7 1 .rrDly2 with dly := 1 }, by decide⟩, ⟨running 7 1 .rrDly2, by decide⟩⟩

theorem witness_SettlingDelayTakesItsSteps : ∃ s : State, s.ph = .rrSet1 ∧ s.wait = false :=
  ⟨running 6 1 .rrSet1, by decide⟩

theorem witness_RegisterReadClocksAndStores :
    (∃ s : State, s.opc = 6 ∧ s.wait = false ∧ s.ph = .rrLoop ∧ s.idx < s.cnt) ∧
    (∃ s : State, s.opc = 7 ∧ s.wait = false ∧ s.ph = .rrLoop ∧ s.cnt ≤ s.idx) ∧
    (∃ s : State, s.opc = 7 ∧ s.wait = false ∧ s.ph = .rrStore) ∧
    (∃ s : State, s.opc = 6 ∧ s.wait = false ∧ s.ph = .rrStore ∧ s.idx.toNat < s.bufcap) :=
  ⟨⟨{ running 6 65535 .rrLoop with idx := 65534 }, by decide⟩, ⟨{ running 7 1 .rrLoop with idx := 1 }, by decide⟩,
   ⟨running 7 1 .rrStore, by decide⟩, ⟨{ running 6 3 .rrStore with idx := 2, bufcap := 3 }, by decide⟩⟩

/-- V6 lines 1 to 10: from the issue to the first settling delay. -/
def addressOrder : List Agent := [.seq, .seq, .seq, .seq, .shf, .shf, .irq, .seq, .seq, .seq, .seq, .seq, .irq, .seq, .seq]

/-- V6 lines 13 to 17: one data byte, to the second settling delay. -/
def dataOrder : List Agent := [.seq, .seq, .seq, .seq, .shf, .shf, .irq, .seq, .seq, .seq, .seq, .seq, .irq, .seq, .seq]

/-- At the head of the data loop with no byte to go, the register read returns. -/
theorem returns_of_done {s u : State} (h : Reaches s u) (hp : u.ph = .rrLoop) (hw : u.wait = false)
    (hc : u.more = false) : ∃ t, ReturnsIn s t := by
  refine ⟨{ u.advance with ph := .idle }, h.trans (Reaches.step (a := .seq) (by decide) ?_), rfl⟩
  have hc' : u.advance.more = false := hc
  simp only [act, agentStep, seqStep, State.advance_wait, State.advance_ph, hp, hw, State.rrLoop, hc']
  simp

/-- A register read of no byte returns (V8): a concrete run, the first settling delay, the return. -/
theorem returns_count_zero (s1 : State) (h : nextIs (runAgents addressOrder s1) (fun _ => true) = true)
    (hp : (after addressOrder s1).ph = .rrDly1) (hw : (after addressOrder s1).wait = false)
    (hc : (after addressOrder s1).more = false) : ∃ t, ReturnsIn s1 t := by
  obtain ⟨turn, tick, hr⟩ := runAgents_rrDly1 _ _ hp hw rfl
  have h1 : Reaches s1 (after addressOrder s1) := reaches_after (by decide) h
  exact returns_of_done (h1.trans ⟨_, by simp, hr⟩) rfl hw hc

theorem witness_RegisterReadFromClean :
    ∃ s1 t : State, idleState.clean ∧ Memory.wf idleState.buf = true ∧ Issued (.sarecv 0x05 0) idleState s1 ∧
      ReturnsIn s1 t := by
  obtain ⟨t, ht⟩ := returns_count_zero (issueSarecv 0x05 0 idleState) (by decide) (by decide) (by decide) (by decide)
  exact ⟨_, t, idle_clean, rfl, ⟨rfl, rfl⟩, ht⟩

/-- A read of one byte returns (V7): the two settling delays between three concrete runs. -/
theorem returns_count_one (s1 : State) (h : nextIs (runAgents addressOrder s1) (fun _ => true) = true)
    (hp : (after addressOrder s1).ph = .rrDly1) (hw : (after addressOrder s1).wait = false)
    (hloop : ∀ turn tick, nextIs
      (runAgents dataOrder { after addressOrder s1 with dly := 0, ph := .rrLoop, turn := turn, tick := tick })
      (fun t => t.ph == .rrDly2 && !t.wait && t.idx == 0 && t.cnt == 1) = true) : ∃ t, ReturnsIn s1 t := by
  obtain ⟨turn, tick, hr⟩ := runAgents_rrDly1 _ _ hp hw rfl
  have h1 : Reaches s1 (after addressOrder s1) := reaches_after (by decide) h
  have h2 := h1.trans ⟨_, by simp, hr⟩
  have h3 := hloop turn tick
  generalize ({ after addressOrder s1 with dly := 0, ph := .rrLoop, turn := turn, tick := tick } : State) = u at h2 h3
  cases hv : runAgents dataOrder u with
  | next v =>
    rw [hv] at h3
    simp only [nextIs, Bool.and_eq_true, beq_iff_eq, Bool.not_eq_true'] at h3
    obtain ⟨⟨⟨hvp, hvw⟩, hvi⟩, hvc⟩ := h3
    obtain ⟨turn', tick', hr'⟩ := runAgents_rrDly2 _ v hvp hvw rfl
    have h4 := (h2.trans ⟨_, by decide, hv⟩).trans ⟨_, by simp, hr'⟩
    exact returns_of_done h4 rfl hvw (by simp [State.more, hvi, hvc])
  | fault f => rw [hv] at h3; cases h3
  | refused r => rw [hv] at h3; cases h3

theorem witness_RegisterReadFromClean_data :
    ∃ s1 t : State, idleState.clean ∧ Memory.wf idleState.buf = true ∧ Issued (.sarecv 0x05 1) idleState s1 ∧
      ReturnsIn s1 t := by
  obtain ⟨t, ht⟩ := returns_count_one (issueSarecv 0x05 1 idleState) (by decide) (by decide) (by decide)
    (fun _ _ => rfl)
  exact ⟨_, t, idle_clean, rfl, ⟨rfl, rfl⟩, ht⟩

theorem witness_RegisterReadByteFromClean :
    ∃ s1 t : State, idleState.clean ∧ Issued (.sarecvb 0x0F) idleState s1 ∧ ReturnsIn s1 t := by
  obtain ⟨t, ht⟩ := returns_count_one (issueSarecvb 0x0F idleState) (by decide) (by decide) (by decide) (fun _ _ => rfl)
  exact ⟨_, t, idle_clean, ⟨rfl, rfl⟩, ht⟩

theorem witness_StaleFlagReadStoresIntendedOrPrevious :
    (∃ s1 t : State, sentState.afterSend ∧ Memory.wf sentState.buf = true ∧ Issued (.sarecv 0x05 1) sentState s1 ∧
      ReturnsIn s1 t) ∧
    (∃ s1 t : State, sentState.afterSend ∧ Memory.wf sentState.buf = true ∧ Issued (.sarecvb 0x0F) sentState s1 ∧
      ReturnsIn s1 t) := by
  obtain ⟨t, ht⟩ := returns_count_one (issueSarecv 0x05 1 sentState) (by decide) (by decide) (by decide)
    (fun _ _ => rfl)
  obtain ⟨t', ht'⟩ := returns_count_one (issueSarecvb 0x0F sentState) (by decide) (by decide) (by decide)
    (fun _ _ => rfl)
  exact ⟨⟨_, t, sent_afterSend, rfl, ⟨rfl, rfl⟩, ht⟩, ⟨_, t', sent_afterSend, rfl, ⟨rfl, rfl⟩, ht'⟩⟩

theorem witness_StaleFlagReadReachesEveryResult :
    (∃ s1 : State, sentState.afterSend ∧ Memory.wf sentState.buf = true ∧
      (65535 : Count).toNat ≤ sentState.bufcap ∧ Issued (.sarecv 0x05 65535) sentState s1) ∧
    (∃ s1 : State, sentState.afterSend ∧ Issued (.sarecvb 0x0F) sentState s1) :=
  ⟨⟨_, sent_afterSend, rfl, by decide, ⟨rfl, rfl⟩⟩, ⟨_, sent_afterSend, ⟨rfl, rfl⟩⟩⟩

/-! ## Witnesses: returning and hanging -/

theorem witness_TransfersWithClockCanAlwaysReturn :
    idleState.sendReady ∧ (65535 : Count).toNat ≤ idleState.bufcap ∧
    (∃ s1 u order, Issued (.sendbuf 65535) idleState s1 ∧ Reaches s1 u ∧ WeaklyFair order s1) ∧
    (∃ s1 u order, Issued (.sendbyte 0xAA) idleState s1 ∧ Reaches s1 u ∧ WeaklyFair order s1) ∧
    (∃ s1 u order, Issued (.sarecv 0xFF 65535) idleState s1 ∧ Reaches s1 u ∧ WeaklyFair order s1) ∧
    (∃ s1 u order, Issued (.sarecvb 0xFF) idleState s1 ∧ Reaches s1 u ∧ WeaklyFair order s1) :=
  ⟨idle_sendReady, by decide,
   ⟨_, _, rotation, ⟨rfl, rfl⟩, Reaches.refl _, rotation_weaklyFair _⟩,
   ⟨_, _, rotation, ⟨rfl, rfl⟩, Reaches.refl _, rotation_weaklyFair _⟩,
   ⟨_, _, rotation, ⟨rfl, rfl⟩, Reaches.refl _, rotation_weaklyFair _⟩,
   ⟨_, _, rotation, ⟨rfl, rfl⟩, Reaches.refl _, rotation_weaklyFair _⟩⟩

theorem witness_TransfersBeforeInitHang :
    State.reset.quiet ∧ State.reset.en = false ∧ State.reset.ifgTxe = false ∧ State.reset.ifgRxf = false ∧
    (1 : Count) ≤ 1 ∧ (∃ s1 t, Issued (.sendbuf 1) State.reset s1 ∧ Reaches s1 t) ∧
    (∃ s1 t, Issued (.sendbyte 0xAA) State.reset s1 ∧ Reaches s1 t) ∧
    (∃ s1 t, Issued (.recvbuf 1) State.reset s1 ∧ Reaches s1 t) ∧
    (∃ s1 t, Issued .recvbyte State.reset s1 ∧ Reaches s1 t) ∧
    (∃ s1 t, Issued (.sarecv 0x05 0) State.reset s1 ∧ Reaches s1 t) ∧
    (∃ s1 t, Issued (.sarecvb 0x0F) State.reset s1 ∧ Reaches s1 t) :=
  ⟨reset_quiet, rfl, rfl, rfl, by decide, ⟨_, _, ⟨rfl, rfl⟩, Reaches.refl _⟩, ⟨_, _, ⟨rfl, rfl⟩, Reaches.refl _⟩,
   ⟨_, _, ⟨rfl, rfl⟩, Reaches.refl _⟩, ⟨_, _, ⟨rfl, rfl⟩, Reaches.refl _⟩, ⟨_, _, ⟨rfl, rfl⟩, Reaches.refl _⟩,
   ⟨_, _, ⟨rfl, rfl⟩, Reaches.refl _⟩⟩

theorem hung_hung : hungState.hung := ⟨by decide, rfl, rfl, rfl, rfl⟩
theorem witness_HangIsPermanent : ∃ s : State, s.hung := ⟨hungState, hung_hung⟩

theorem hung_exchangeInv : hungState.ExchangeInv :=
  ⟨⟨by intro k; cases k <;> decide, by decide, by decide, by decide, by decide⟩, by decide, by decide, by decide⟩
theorem witness_OnlyReceiveOperationsHang :
    (∃ s : State, s.ExchangeInv ∧ s.en = true ∧ s.hung) ∧
    (∃ (s : State) (order : Nat → Agent), s.ExchangeInv ∧ s.IdxInv ∧ s.en = true ∧ s.cnt.toNat ≤ s.bufcap ∧
      WeaklyFair order s ∧ s.ph ≠ .idle) :=
  ⟨⟨hungState, hung_exchangeInv, rfl, hung_hung⟩,
   ⟨{ running 6 3 .rrLoop with idx := 2, bufcap := 3 }, rotation,
     ⟨⟨by intro k; cases k <;> decide, by decide, by decide, by decide, by decide⟩, by decide, by decide, by decide⟩,
     ⟨by decide, by decide⟩, rfl, by decide, rotation_weaklyFair _, by decide⟩⟩

/-! ## Witnesses: whole-machine rules -/

/-- The sequencer's turn at the loop head of SENDBYTE. -/
def sendTurn : State := { running 3 1 .sbLoop with turn := .seq }

theorem sendTurn_exchangeInv : sendTurn.ExchangeInv :=
  ⟨⟨by intro k; cases k <;> decide, by decide, by decide, by decide, by decide⟩, by decide, by decide, by decide⟩

theorem witness_ExchangeInvariantKept : ∃ s t : State, s.ExchangeInv ∧ step s = .next t :=
  ⟨sendTurn, _, sendTurn_exchangeInv, rfl⟩
theorem witness_ExchangeInvariantWhenIdle :
    ∃ s : State, s.ph = .idle ∧ s.ieTxe = false ∧ s.ieRxf = false ∧ s.wait = false ∧ s.ifgTxe = false ∧
      s.txfull = false := ⟨sentState, by decide⟩
theorem witness_NoQueuedByteOverwritten :
    ∃ s t : State, s.ExchangeInv ∧ step s = .next t ∧ t.txlog ≠ s.txlog :=
  ⟨sendTurn, _, sendTurn_exchangeInv, rfl, by decide⟩
theorem witness_ExchangesFollowWrites :
    (∃ s t : State, s.ExchangeInv ∧ s.LogInv ∧ step s = .next t) ∧ (∃ s : State, s.powerOn) ∧
    (∃ (s : State) (order : Nat → Agent), s.en = true ∧ s.txfull = true ∧ s.busy = false ∧ WeaklyFair order s) ∧
    (∃ (s : State) (order : Nat → Agent), s.en = true ∧ s.txfull = false ∧ s.busy = true ∧ WeaklyFair order s) :=
  ⟨⟨sendTurn, _, sendTurn_exchangeInv, rfl, rfl⟩, ⟨State.reset, reset_powerOn⟩,
   ⟨{ idleState with txfull := true }, rotation, rfl, rfl, rfl, rotation_weaklyFair _⟩,
   ⟨{ idleState with busy := true }, rotation, rfl, rfl, rfl, rotation_weaklyFair _⟩⟩
theorem witness_ReceiveRegisterHoldsLastByte :
    (∃ s t : State, s.RxInv ∧ step s = .next t ∧ t.wire ≠ []) ∧ (∃ s : State, s.powerOn) :=
  ⟨⟨{ sentState with busy := true, turn := .shf }, _, fun x h => by cases h; rfl, rfl, by simp [sentState]⟩,
   ⟨State.reset, reset_powerOn⟩⟩
theorem witness_LoopPositionStaysInRange :
    (∃ s t : State, s.ArmInv ∧ s.IdxInv ∧ step s = .next t ∧ s.turn ≠ .host ∧ t.idx ≠ s.idx) ∧
    (∃ s : State, s.ph = .idle) :=
  ⟨⟨{ running 2 65535 .sbNext with idx := 65534, turn := .seq }, _,
     ⟨by intro k; cases k <;> decide, by decide, by decide, by decide, by decide⟩, ⟨by decide, by decide⟩, rfl,
     by decide, by decide⟩, ⟨State.reset, rfl⟩⟩

/-- Some step takes a state that passes the first check to one that passes the second. -/
def Changes (p q : State → Bool) : Prop := ∃ s t : State, step s = .next t ∧ p s = true ∧ q t = true

theorem witness_FlagsChangeOnlyAsListed :
    Changes (fun s => !s.ifgTxe) (fun t => t.ifgTxe) ∧ Changes (fun s => s.ifgTxe) (fun t => !t.ifgTxe) ∧
    Changes (fun s => !s.ifgRxf) (fun t => t.ifgRxf) ∧ Changes (fun s => s.ifgRxf) (fun t => !t.ifgRxf) ∧
    Changes (fun s => !s.busy) (fun t => t.busy) ∧ Changes (fun s => s.busy) (fun t => !t.busy) ∧
    Changes (fun s => !s.txfull) (fun t => t.txfull) ∧ Changes (fun s => s.txfull) (fun t => !t.txfull) ∧
    Changes (fun s => !s.wait) (fun t => t.wait) ∧ Changes (fun s => s.wait) (fun t => !t.wait) ∧
    Changes (fun s => !s.gie) (fun t => t.gie) ∧ Changes (fun s => s.gie) (fun t => !t.gie) ∧
    Changes (fun s => !s.ie .txe) (fun t => t.ie .txe) ∧ Changes (fun s => s.ie .txe) (fun t => !t.ie .txe) :=
  ⟨⟨{ idleState with txfull := true, turn := .shf }, _, rfl, rfl, rfl⟩,
   ⟨{ waiting 3 .txe .sbNext with ifgTxe := true, turn := .irq }, _, rfl, rfl, rfl⟩,
   ⟨{ idleState with busy := true, turn := .shf }, _, rfl, rfl, rfl⟩,
   ⟨{ running 1 0 .cfInit with ifgRxf := true, turn := .seq }, _, rfl, rfl, rfl⟩,
   ⟨{ idleState with txfull := true, turn := .shf }, _, rfl, rfl, rfl⟩,
   ⟨{ idleState with busy := true, turn := .shf }, _, rfl, rfl, rfl⟩,
   ⟨sendTurn, _, rfl, rfl, rfl⟩,
   ⟨{ idleState with txfull := true, turn := .shf }, _, rfl, rfl, rfl⟩,
   ⟨{ arming with turn := .seq }, _, rfl, rfl, rfl⟩,
   ⟨{ waiting 3 .txe .sbNext with ifgTxe := true, turn := .irq }, _, rfl, rfl, rfl⟩,
   ⟨{ arming with turn := .seq }, _, rfl, rfl, rfl⟩,
   ⟨{ running 3 1 .aw1 with turn := .seq }, _, rfl, rfl, rfl⟩,
   ⟨{ running 3 1 .aw2 with turn := .seq }, _, rfl, rfl, rfl⟩,
   ⟨{ waiting 3 .txe .sbNext with wait := false, turn := .seq }, _, rfl, rfl, rfl⟩⟩

theorem witness_ObservablesOnlyGrow :
    Changes (fun s => s.en) (fun t => t.en) ∧ ∃ s t : State, step s = .next t ∧ t.wire ≠ s.wire :=
  ⟨⟨sendTurn, _, rfl, rfl, rfl⟩, ⟨{ sentState with busy := true, turn := .shf }, _, rfl, by simp [sentState]⟩⟩

theorem witness_BusSettingsAffectNoTransfer :
    ∃ s s' : State, s.sameButSettings s' ∧ s ≠ s' :=
  ⟨sendTurn, { sendTurn with ckph := true, ckpl := true, clksel := 3, brdiv := 8 }, rfl, by decide⟩

theorem witness_OperationsKeepTheirFrame :
    (∃ s t : State, exec (.sendbyte 0xAA) s = .next t ∧ s.ph = .sbLoop) ∧
    (∃ s t : State, exec (.recvbuf 2) s = .next t ∧ s.ph = .rbStore) ∧
    (∃ s t : State, exec (.init 1 0 false false) s = .next t ∧ s.ph = .cfInit) ∧
    (∃ s t : State, exec (.sarecv 5 1) s = .next t ∧ s.ph = .aw2) ∧
    (∃ s t : State, exec .recvbyte s = .next t ∧ s.ph = .rbStore ∧ s.opc = 5) ∧
    (∃ s t : State, exec (.sarecvb 5) s = .next t ∧ s.ph = .rrStore ∧ s.opc = 7) ∧
    (∃ s t : State, exec (.sarecv 5 1) s = .next t ∧ s.ph = .rrStore ∧ s.opc ≠ 7) ∧
    (∃ s t : State, exec .recvbyte s = .next t ∧ s.ph = .idle) :=
  ⟨⟨running 3 1 .sbLoop, _, rfl, rfl⟩, ⟨running 4 2 .rbStore, _, rfl, rfl⟩, ⟨running 1 0 .cfInit, _, rfl, rfl⟩,
   ⟨running 6 1 .aw2, _, rfl, rfl⟩, ⟨running 5 1 .rbStore, _, rfl, rfl, rfl⟩, ⟨running 7 1 .rrStore, _, rfl, rfl, rfl⟩,
   ⟨running 6 1 .rrStore, _, rfl, rfl, by decide⟩, ⟨idleState, _, rfl, rfl⟩⟩

theorem witness_BufferWrittenOnlyAtLoopPosition :
    (∃ s t : State, step s = .next t ∧ s.turn ≠ .host ∧ t.buf ≠ s.buf ∧ Memory.wf s.buf = true ∧ s.ph = .rbStore) ∧
    (∃ s t : State, step s = .next t ∧ s.turn ≠ .host ∧ t.buf ≠ s.buf ∧ Memory.wf s.buf = true ∧ s.ph = .rrStore) ∧
    (∃ s t : State, step s = .next t ∧ s.turn = .host ∧ s.ph ≠ .idle) :=
  ⟨⟨{ running 4 2 .rbStore with rxbuf := 0x5C, turn := .seq }, _, rfl, by decide, by decide, rfl, rfl⟩,
   ⟨{ running 6 2 .rrStore with rxbuf := 0x5C, turn := .seq }, _, rfl, by decide, by decide, rfl, rfl⟩,
   ⟨running 4 2 .rbStore, _, rfl, rfl, by decide⟩⟩

theorem witness_AccessBeyondCapacityFaults :
    (∃ s : State, s.wait = false ∧ s.bufcap ≤ s.idx.toNat ∧ s.ph = .sbLoop ∧ s.opc = 2 ∧ s.idx < s.cnt) ∧
    (∃ s : State, s.wait = false ∧ s.bufcap ≤ s.idx.toNat ∧ s.ph = .rbStore ∧ s.opc = 4) ∧
    (∃ s : State, s.wait = false ∧ s.bufcap ≤ s.idx.toNat ∧ s.ph = .rrStore ∧ s.opc = 6) :=
  ⟨⟨{ running 2 3 .sbLoop with idx := 2, bufcap := 2 }, by decide⟩,
   ⟨{ running 4 3 .rbStore with idx := 2, bufcap := 2 }, by decide⟩,
   ⟨{ running 6 3 .rrStore with idx := 0, bufcap := 0 }, by decide⟩⟩

theorem witness_BufferKeepsCanonicalForm :
    ∃ s t : State, Memory.wf s.buf = true ∧ step s = .next t ∧ t.buf = [] ∧ s.buf ≠ [] :=
  ⟨{ running 4 2 .rbStore with buf := [(0, 0x5C)], turn := .seq }, _, by decide, rfl, rfl, by decide⟩

end Sys2Proof.Tests
end

section
/-! PROOFS. The illegal command word (30_encoding.md R61, R62): a word the decoder reads as an operation selects a row
of the opcode map, so an illegal word is read as none, and the idle block refuses it at the host's turn. -/

namespace Sys2Proof

/-- What the mask of a row keeps: with opcode `k` (R55) and the must-be-zero field between the opcode and the `n` bits
of operands clear (R61), the bits from `n` up are the opcode alone. -/
theorem and_mask_eq_of_fields {w : Word} {n k : Nat} (hn : n ≤ 28) (hop : (w.extractLsb' 28 4).toNat = k)
    (hzero : w.extractLsb' n (28 - n) = 0) :
    w &&& BitVec.allOnes 32 <<< n = BitVec.ofNat 32 k <<< 28 := by
  have hopcode : w.toNat / 2 ^ n / 2 ^ (28 - n) = k := by
    have hw := w.isLt
    rw [BitVec.extractLsb'_toNat, Nat.shiftRight_eq_div_pow] at hop
    rw [Nat.div_div_eq_div_mul, ← pow_add, Nat.add_sub_cancel' hn]
    omega
  have hreserved : w.toNat / 2 ^ n % 2 ^ (28 - n) = 0 := by
    simpa [Nat.shiftRight_eq_div_pow] using congrArg BitVec.toNat hzero
  have hhigh : w.toNat >>> n = k <<< (28 - n) := by
    rw [Nat.shiftRight_eq_div_pow, Nat.shiftLeft_eq, ← hopcode, Nat.div_mul_cancel (Nat.dvd_of_mod_eq_zero hreserved)]
  rw [← BitVec.shiftLeft_ushiftRight]
  apply BitVec.eq_of_toNat_eq
  simp only [BitVec.toNat_shiftLeft, BitVec.toNat_ushiftRight, BitVec.toNat_ofNat, hhigh, ← Nat.shiftLeft_add,
    Nat.sub_add_cancel hn]
  simp only [Nat.shiftLeft_eq, Nat.mod_mul_mod]

/-- A word with the opcode of a row and that row's must-be-zero field clear is legal. -/
theorem legalWord_of_fields {w : Word} {n k : Nat} (m : Mnemonic) (hn : n ≤ 28)
    (hrow : ⟨m, BitVec.ofNat 32 k <<< 28, BitVec.allOnes 32 <<< n⟩ ∈ opcodeMap)
    (hop : (w.extractLsb' 28 4).toNat = k) (hzero : w.extractLsb' n (28 - n) = 0) : legalWord w = true :=
  List.any_eq_true.mpr ⟨_, hrow, beq_iff_eq.mpr (and_mask_eq_of_fields hn hop hzero)⟩

/-- A format with must-be-zero bits (R61) is read as an operation only where they are clear. -/
theorem of_ite_ok_error_eq_ok {c : Prop} [Decidable c] {i j : Instr} {why : Reject}
    (h : (if c then .ok i else .error why : Except Reject Instr) = .ok j) : c := by
  by_contra hc
  rw [if_neg hc] at h
  cases h

/-- A word that is read as an operation is legal, opcode by opcode (R58). -/
theorem legalWord_of_decode_eq_ok {w : Word} {i : Instr} (h : decode w = .ok i) : legalWord w = true := by
  unfold decode at h
  split at h
  next hop => exact legalWord_of_fields .init (n := 28) (by decide) (by decide) hop (BitVec.eq_nil _)
  next hop => exact legalWord_of_fields .sendbuf (n := 16) (by decide) (by decide) hop (of_ite_ok_error_eq_ok h)
  next hop => exact legalWord_of_fields .sendbyte (n := 8) (by decide) (by decide) hop (of_ite_ok_error_eq_ok h)
  next hop => exact legalWord_of_fields .recvbuf (n := 16) (by decide) (by decide) hop (of_ite_ok_error_eq_ok h)
  next hop => exact legalWord_of_fields .recvbyte (n := 0) (by decide) (by decide) hop (of_ite_ok_error_eq_ok h)
  next hop => exact legalWord_of_fields .sarecv (n := 24) (by decide) (by decide) hop (of_ite_ok_error_eq_ok h)
  next hop => exact legalWord_of_fields .sarecvb (n := 8) (by decide) (by decide) hop (of_ite_ok_error_eq_ok h)
  next => cases h

/-- The decoder names a reason for every illegal word. -/
theorem decode_eq_error_of_illegal {w : Word} (hw : legalWord w = false) : ∃ why, decode w = .error why := by
  cases h : decode w with
  | error why => exact ⟨why, rfl⟩
  | ok i => exact absurd (legalWord_of_decode_eq_ok h) (by simp [hw])

namespace Machine

/-- The idle block takes the word on the port (R59). -/
theorem hostStep_of_idle {s : State} {w : Word} (hp : s.ph = .idle) (hw : s.port = some w) :
    hostStep s = issueWord w s := by
  simp [hostStep, State.ready, hp, hw]

/-- A word the decoder rejects is refused for the decoder's reason (R62). -/
theorem issueWord_of_error {w : Word} {why : Reject} (s : State) (h : decode w = .error why) :
    issueWord w s = .refused (.illegalCommand why) := by
  simp [issueWord, h]

/-- Settles O5: the decoder rejects every illegal word, and the host's turn in an idle state with that word on the
port is its refusal, whatever the other fields hold. -/
theorem illegalWordIsRefused : Obligations.IllegalWordIsRefused := by
  intro s w hturn hph hport hw
  obtain ⟨why, hwhy⟩ := decode_eq_error_of_illegal hw
  refine ⟨why, ?_⟩
  calc step s = hostStep s.advance := by rw [step, hturn, agentStep]
    _ = issueWord w s.advance := hostStep_of_idle hph hport
    _ = .refused (.illegalCommand why) := issueWord_of_error _ hwhy

end Machine

end Sys2Proof
end

section
/-! PROOFS. INIT (40_configuration.md R70, R71, R76): its two steps as a whole-state effect, and the shifter's next step
after it. -/

namespace Sys2Proof.Machine

/-- The sequencer's step of phase CF_INIT (R70). -/
theorem seqStep_of_cfInit {s : State} (hp : s.ph = .cfInit) (hw : s.wait = false) :
    seqStep s = .next (s.configure Config.clock) := by
  simp [seqStep, hp, hw]

/-- INIT in progress in phase CF_INIT configures the controller from the held operands, whatever the word says. -/
theorem exec_init_of_cfInit {s : State} (clksel : ClkSel) (rate : Rate) (ckph ckpl : Bool) (hp : s.ph = .cfInit)
    (hw : s.wait = false) (hop : s.opc = 1) :
    exec (.init clksel rate ckph ckpl) s = .next (s.configure Config.clock) :=
  (exec_of_running (by simp [hp]) hop).trans (seqStep_of_cfInit hp hw)

/-- The default source is a recognized one (R71). -/
theorem clkRecognized_clkDefault : Config.clkRecognized Config.clkDefault = true := by
  simp [Config.clkRecognized]

/-- The source selected is a recognized one, whatever code is given (R71). -/
theorem clkRecognized_selectClock (c : ClkSel) : Config.clkRecognized (selectClock Config.clock c) = true := by
  obtain ⟨hc, he⟩ | ⟨-, he⟩ := selectClock_cases Config.clock c
  · rw [he]; exact hc
  · rw [he]; exact clkRecognized_clkDefault

/-- Settles O9: the issue step holds the operands, and CF_INIT configures the controller from them. -/
theorem initConfiguresController : Obligations.InitConfiguresController := by
  intro s clksel rate ckph ckpl hp hw
  refine ⟨issueInit clksel rate ckph ckpl s, exec_of_idle _ hp, ?_, clkRecognized_selectClock clksel⟩
  exact exec_init_of_cfInit clksel rate ckph ckpl rfl hw rfl

/-- The shifter's turn is LOAD with a byte queued and none in flight (41_bus_controller_shifter.md R81). -/
theorem shfStep_of_queued {s : State} (hen : s.en = true) (hfull : s.txfull = true) (hbusy : s.busy = false) :
    shfStep s = .next s.load := by
  simp [shfStep, State.canLoad, hen, hfull, hbusy]

/-- The shifter's turn is COMPLETE with a byte in flight (41_bus_controller_shifter.md R82). -/
theorem shfStep_of_busy {s : State} (hen : s.en = true) (hbusy : s.busy = true) :
    shfStep s = .next (s.complete (Config.slave s.tick s.wire s.shreg)) := by
  simp [shfStep, State.canLoad, State.canComplete, hen, hbusy]

/-- Settles O12: CF_INIT writes EN and no field of the data path, so the shifter's next turn is COMPLETE for the byte
in flight, or else LOAD for the byte queued. -/
theorem initLeavesDataPath : Obligations.InitLeavesDataPath := by
  intro s t clksel rate ckph ckpl hp hw hop h
  rw [exec_init_of_cfInit clksel rate ckph ckpl hp hw hop] at h
  cases h
  refine ⟨rfl, rfl, rfl, rfl, rfl, fun hbusy => ?_, fun hbusy hfull => ?_⟩
  · exact ⟨_, shfStep_of_busy rfl hbusy, rfl, rfl⟩
  · exact ⟨_, shfStep_of_queued rfl hfull hbusy, rfl, rfl⟩

end Sys2Proof.Machine
end

section
/-! PROOFS. The shifter's step of the machine (41_bus_controller_shifter.md R81, R82): at its turn it loads the queued
byte or completes the exchange in flight, and changes nothing else. -/

namespace Sys2Proof.Machine

/-- At the shifter's turn the machine's step is the shifter's. -/
theorem step_of_shf_turn {s : State} (hturn : s.turn = .shf) : step s = shfStep s.advance := by
  rw [step, hturn, agentStep]

/-- Settles O13: with a byte queued and none in flight the shifter's step is LOAD. -/
theorem shifterLoadsByte : Obligations.ShifterLoadsByte := by
  intro s hturn hen hfull hbusy
  calc step s = shfStep s.advance := step_of_shf_turn hturn
    _ = .next s.advance.load := shfStep_of_queued hen hfull hbusy

/-- Settles O14: with a byte in flight the shifter's step is COMPLETE, whatever is queued; the byte is the slave's
answer to everything on the wire so far and the byte shifted out. -/
theorem shifterCompletesExchange : Obligations.ShifterCompletesExchange := by
  intro s hturn hen hbusy
  refine ⟨Config.slave s.advance.tick s.wire s.shreg, ?_⟩
  calc step s = shfStep s.advance := step_of_shf_turn hturn
    _ = .next (s.advance.complete (Config.slave s.advance.tick s.wire s.shreg)) := shfStep_of_busy hen hbusy

end Sys2Proof.Machine
end

section
/-! PROOFS. The end of the wait (42_sync_primitive.md R94): while WAIT = 1 the sequencer has no step, and of the other
agents only the handler writes WAIT, in the case of a signaled source. -/

namespace Sys2Proof.Machine

/-- While WAIT = 1 the sequencer's turn changes nothing (10_state.md R21). -/
theorem seqStep_of_wait {s : State} (hw : s.wait = true) : seqStep s = .next s := by
  simp [seqStep, hw]

/-- While WAIT = 1 a step at the sequencer's turn only draws who moves next. -/
theorem step_of_seq_turn_of_wait {s : State} (hturn : s.turn = .seq) (hw : s.wait = true) :
    step s = .next s.advance := by
  rw [step, hturn, agentStep, seqStep_of_wait (s := s.advance) hw]

/-- No operation's issue step writes WAIT (30_encoding.md R59). -/
@[simp] theorem issue_wait (i : Instr) (s : State) : (issue i s).wait = s.wait := by
  cases i <;> rfl

/-- The host's turn keeps WAIT, whether it issues, presents or does nothing. -/
theorem hostStep_keeps_wait {s t : State} (h : hostStep s = .next t) : t.wait = s.wait := by
  obtain ⟨-, w, i, -, -, rfl⟩ | ⟨-, -, m, rfl⟩ | rfl := hostStep_cases h
  · exact issue_wait i _
  · exact State.present_wait _ _ s
  · rfl

/-- The shifter's turn keeps WAIT: LOAD and COMPLETE only raise flags. -/
theorem shfStep_keeps_wait {s t : State} (h : shfStep s = .next t) : t.wait = s.wait := by
  obtain ⟨-, rfl⟩ | ⟨-, -, rfl⟩ | ⟨-, -, rfl⟩ := shfStep_cases h
  · exact State.load_wait s
  · exact State.complete_wait _ s
  · rfl

/-- A handler's turn that ends the wait is one with delivery on that takes, and clears the flag of, a signaled source;
PH stays (60_exceptions.md R136, R140). -/
theorem irqStep_of_wait_ended {s t : State} (h : irqStep s = .next t) (hw : s.wait = true) (ht : t.wait = false) :
    s.gie = true ∧ t.ph = s.ph ∧ ∃ k, s.signaled k = true ∧ t.ifg k = false := by
  obtain ⟨hgie, hrxf, rfl⟩ | ⟨hgie, -, htxe, rfl⟩ | ⟨-, rfl⟩ := irqStep_cases h
  · exact ⟨hgie, rfl, .rxf, hrxf, rfl⟩
  · exact ⟨hgie, rfl, .txe, htxe, rfl⟩
  · exact absurd hw (by simp [ht])

/-- A step that ends the wait is the handler's. -/
theorem step_of_wait_ended {s t : State} (h : step s = .next t) (hw : s.wait = true) (ht : t.wait = false) :
    s.turn = .irq ∧ irqStep s.advance = .next t := by
  have hkept : t.wait ≠ s.advance.wait := by simp [hw, ht]
  obtain ⟨-, h⟩ | ⟨hturn, -⟩ | ⟨-, h⟩ | ⟨hturn, h⟩ := agentStep_cases h
  · exact absurd (hostStep_keeps_wait h) hkept
  · rw [step_of_seq_turn_of_wait hturn hw] at h
    cases h
    exact absurd rfl hkept
  · exact absurd (shfStep_keeps_wait h) hkept
  · exact ⟨hturn, h⟩

/-- Settles O18: at the sequencer's turn nothing of the block changes, and the step that ends the wait is the
handler's, which takes a signaled source's case. -/
theorem onlyHandlerEndsWait : Obligations.OnlyHandlerEndsWait := by
  intro s t hw h
  refine ⟨fun hturn => ?_, fun ht => ?_⟩
  · rw [step_of_seq_turn_of_wait hturn hw] at h
    cases h
    rfl
  · obtain ⟨hturn, hirq⟩ := step_of_wait_ended h hw ht
    obtain ⟨hgie, hph, hsource⟩ := irqStep_of_wait_ended hirq hw ht
    exact ⟨hturn, hgie, hph, hsource⟩

end Sys2Proof.Machine
end

section
/-! PROOFS. The loop head of SENDBUF and SENDBYTE (43_transfer_send.md R101): the byte it writes, and its two ways
on. -/

namespace Sys2Proof.Machine

/-- There is a next byte while the loop position is below the count, both unsigned on 16 bits (R101). -/
theorem State.more_iff (s : State) : s.more = true ↔ s.idx < s.cnt := by
  simp [State.more]

/-- SENDBYTE sends ADR (R101). -/
theorem State.sendOperand_of_sendbyte {s : State} (hop : s.opc = 3) : s.sendOperand = .ok s.adr := by
  obtain ⟨-, he⟩ | ⟨hne, -⟩ | ⟨hne, -⟩ := s.sendOperand_cases
  · exact he
  · exact absurd hop hne
  · exact absurd hop hne

/-- SENDBUF sends the byte of the buffer at the loop position, within the capacity (R101, 20_memory.md R41). -/
theorem State.sendOperand_of_sendbuf {s : State} (hop : s.opc = 2) (hcap : s.idx.toNat < s.bufcap) :
    s.sendOperand = .ok (Memory.read s.buf s.idx.toNat) := by
  obtain ⟨h3, -⟩ | ⟨-, -, he⟩ | ⟨-, hover, -⟩ := s.sendOperand_cases
  · exact absurd (hop.symm.trans h3) (by decide)
  · exact he
  · exact absurd hcap (Nat.not_lt.mpr hover)

/-- The sequencer's step of phase SB_LOOP (R101). -/
theorem seqStep_of_sbLoop {s : State} (hp : s.ph = .sbLoop) (hw : s.wait = false) : seqStep s = sbLoop s := by
  simp [seqStep, hp, hw]

/-- Below the count the loop head writes the operand and awaits transmit-empty. -/
theorem sbLoop_of_lt {s : State} {v : Byte} (hlt : s.idx < s.cnt) (hv : s.sendOperand = .ok v) :
    sbLoop s = .next ((s.txWrite v).armAndWait .txe .sbNext) := by
  rw [sbLoop, if_pos (s.more_iff.mpr hlt), hv]

/-- At the count the loop head goes on to the poll. -/
theorem sbLoop_of_le {s : State} (hle : s.cnt ≤ s.idx) : sbLoop s = .next { s with ph := .sbPoll } := by
  rw [sbLoop, if_neg (mt s.more_iff.mp (BitVec.not_lt.mpr hle))]

/-- A send operation in progress at the loop head takes that phase's step. -/
theorem exec_of_sbLoop {s : State} (i : Instr) (hp : s.ph = .sbLoop) (hw : s.wait = false) (hop : s.opc = i.opcode) :
    exec i s = sbLoop s :=
  (exec_of_running (by simp [hp]) hop).trans (seqStep_of_sbLoop hp hw)

/-- Settles O25: each operation takes the loop head's step, below the count with its own operand, at the count without
one. -/
theorem sendLoopWritesNextByte : Obligations.SendLoopWritesNextByte := by
  intro s hp hw
  refine ⟨fun byte hop hlt => ?_, fun count hop hlt hcap => ?_, fun byte hop hle => ?_, fun count hop hle => ?_⟩
  · exact (exec_of_sbLoop (.sendbyte byte) hp hw hop).trans (sbLoop_of_lt hlt (State.sendOperand_of_sendbyte hop))
  · exact (exec_of_sbLoop (.sendbuf count) hp hw hop).trans (sbLoop_of_lt hlt (State.sendOperand_of_sendbuf hop hcap))
  · exact (exec_of_sbLoop (.sendbyte byte) hp hw hop).trans (sbLoop_of_le hle)
  · exact (exec_of_sbLoop (.sendbuf count) hp hw hop).trans (sbLoop_of_le hle)

end Sys2Proof.Machine
end

section
/-! PROOFS. The loop head of RECVBUF and RECVBYTE (44_transfer_receive.md R111): its two ways on. -/

namespace Sys2Proof.Machine

/-- The sequencer's step of phase RB_LOOP (R111). -/
theorem seqStep_of_rbLoop {s : State} (hp : s.ph = .rbLoop) (hw : s.wait = false) : seqStep s = .next s.rbLoop := by
  simp [seqStep, hp, hw]

/-- A receive operation in progress at the loop head takes that phase's step. -/
theorem exec_of_rbLoop {s : State} {i : Instr} (hp : s.ph = .rbLoop) (hw : s.wait = false) (hop : s.opc = i.opcode) :
    exec i s = .next s.rbLoop :=
  (exec_of_running (by simp [hp]) hop).trans (seqStep_of_rbLoop hp hw)

/-- Below the count the loop head awaits receive-full and transmits nothing (R111, R114). -/
theorem State.rbLoop_of_lt {s : State} (hlt : s.idx < s.cnt) : s.rbLoop = s.armAndWait .rxf .rbStore :=
  if_pos (s.more_iff.mpr hlt)

/-- At the count the loop head returns. -/
theorem State.rbLoop_of_le {s : State} (hle : s.cnt ≤ s.idx) : s.rbLoop = { s with ph := .idle } :=
  if_neg (mt s.more_iff.mp (BitVec.not_lt.mpr hle))

/-- Settles O31: both operations take the loop head's step, which awaits receive-full below the count and returns at
it. -/
theorem receiveLoopWaitsOrReturns : Obligations.ReceiveLoopWaitsOrReturns := by
  intro s i hi hp hw
  have hop : s.opc = i.opcode := by
    obtain ⟨hop, count, rfl⟩ | ⟨hop, rfl⟩ := hi
    · exact hop
    · exact hop
  have hexec : exec i s = .next s.rbLoop := exec_of_rbLoop hp hw hop
  refine ⟨fun hlt => ?_, fun hle => ?_⟩
  · rw [hexec, State.rbLoop_of_lt hlt, State.armAndWait]
  · rw [hexec, State.rbLoop_of_le hle]

end Sys2Proof.Machine
end

section
/-! PROOFS. The data loop of SARECV and SARECVB (45_register_read.md R124, R125): the loop head's two ways on, and where
the store step puts the received byte. -/

namespace Sys2Proof.Machine

/-- The byte form's received byte goes to RES (R125; also 44_transfer_receive.md R112). -/
theorem State.storeReceived_of_byteForm {op : Opcode} {s : State} (v : Byte) (hop : s.opc = op) :
    s.storeReceived op v = .ok { s with res := v } :=
  if_pos hop

/-- The buffer form's received byte goes to the buffer at the loop position, within the capacity (R125, 20_memory.md
R42; also 44_transfer_receive.md R112). -/
theorem State.storeReceived_of_bufferForm {op : Opcode} {s : State} (v : Byte) (hop : s.opc ≠ op)
    (hcap : s.idx.toNat < s.bufcap) :
    s.storeReceived op v = .ok { s with buf := Memory.write s.buf s.idx.toNat v } := by
  obtain ⟨heq, -⟩ | ⟨-, -, he⟩ | ⟨-, hover, -⟩ := s.storeReceived_cases op v
  · exact absurd heq hop
  · exact he
  · exact absurd hcap (Nat.not_lt.mpr hover)

/-- The sequencer's step of phase RR_LOOP (R124). -/
theorem seqStep_of_rrLoop {s : State} (hp : s.ph = .rrLoop) (hw : s.wait = false) : seqStep s = .next s.rrLoop := by
  simp [seqStep, hp, hw]

/-- The sequencer's step of phase RR_STORE (R125). -/
theorem seqStep_of_rrStore {s : State} (hp : s.ph = .rrStore) (hw : s.wait = false) : seqStep s = rrStore s := by
  simp [seqStep, hp, hw]

/-- A register read in progress at the loop head takes that phase's step. -/
theorem exec_of_rrLoop {s : State} {i : Instr} (hp : s.ph = .rrLoop) (hw : s.wait = false) (hop : s.opc = i.opcode) :
    exec i s = .next s.rrLoop :=
  (exec_of_running (by simp [hp]) hop).trans (seqStep_of_rrLoop hp hw)

/-- A register read in progress at the store step takes that phase's step. -/
theorem exec_of_rrStore {s : State} {i : Instr} (hp : s.ph = .rrStore) (hw : s.wait = false) (hop : s.opc = i.opcode) :
    exec i s = rrStore s :=
  (exec_of_running (by simp [hp]) hop).trans (seqStep_of_rrStore hp hw)

/-- Below the count the loop head transmits the dummy byte and awaits receive-full. -/
theorem State.rrLoop_of_lt {s : State} (hlt : s.idx < s.cnt) :
    s.rrLoop = (s.txWrite dummyByte).armAndWait .rxf .rrStore :=
  if_pos (s.more_iff.mpr hlt)

/-- At the count the loop head returns. -/
theorem State.rrLoop_of_le {s : State} (hle : s.cnt ≤ s.idx) : s.rrLoop = { s with ph := .idle } :=
  if_neg (mt s.more_iff.mp (BitVec.not_lt.mpr hle))

/-- Once RXBUF is stored, the store step awaits transmit-empty. -/
theorem rrStore_of_stored {s t : State} (h : s.storeReceived 7 s.rxbuf = .ok t) :
    rrStore s = .next (t.armAndWait .txe .rrSet2) := by
  rw [rrStore, State.rxRead, h]

/-- Settles O38: both operations take the step of the phase; the loop head's turns on the count, the store step's on the
form of the operation. -/
theorem registerReadClocksAndStores : Obligations.RegisterReadClocksAndStores := by
  intro s i hi hw
  have hop : s.opc = i.opcode := by
    obtain ⟨hop, regaddr, count, rfl⟩ | ⟨hop, regaddr, rfl⟩ := hi
    · exact hop
    · exact hop
  refine ⟨fun hp hlt => ?_, fun hp hle => ?_, fun hp h7 => ?_, fun hp h6 hcap => ?_⟩
  · rw [exec_of_rrLoop hp hw hop, State.rrLoop_of_lt hlt, State.armAndWait, State.txWrite, dummyByte]
  · rw [exec_of_rrLoop hp hw hop, State.rrLoop_of_le hle]
  · exact (exec_of_rrStore hp hw hop).trans (rrStore_of_stored (State.storeReceived_of_byteForm s.rxbuf h7))
  · have h7 : s.opc ≠ 7 := by simp [h6]
    exact (exec_of_rrStore hp hw hop).trans (rrStore_of_stored (State.storeReceived_of_bufferForm s.rxbuf h7 hcap))

end Sys2Proof.Machine
end

section
/-! PROOFS. Power-on (70_reset_and_hazards.md R155): every state the spec admits after power-on is ready for a command
and requests no interrupt, whatever its draws, and the reset state is one of them. -/

namespace Sys2Proof.Machine

/-- With nothing armed no source is signaled, so nothing is requested, whatever is pending (60_exceptions.md R133). -/
theorem State.irqRequest_eq_false_of_unarmed {s : State} (h : ∀ k, s.ie k = false) : s.irqRequest = false := by
  have hsignaled : ∀ k, s.signaled k = false := fun k => by rw [State.signaled, h k, Bool.and_false]
  simp [State.irqRequest, State.iv, hsignaled]

theorem State.powerOn.unarmed {s : State} (h : s.powerOn) : ∀ k, s.ie k = false
  | .txe => h.ieTxe
  | .rxf => h.ieRxf

theorem State.powerOn.ready {s : State} (h : s.powerOn) : s.ready = true := by
  rw [State.ready, h.ph, beq_self_eq_true]

theorem State.powerOn.irqRequest {s : State} (h : s.powerOn) : s.irqRequest = false :=
  State.irqRequest_eq_false_of_unarmed h.unarmed

/-- The reset state is one the spec admits (R155); its other fields are one choice of the draws (logs 6, 8, 9). -/
theorem State.reset_powerOn : State.reset.powerOn where
  en := rfl
  msbf := rfl
  ieTxe := rfl
  ieRxf := rfl
  busy := rfl
  txfull := rfl
  ph := rfl
  wait := rfl
  txlog := rfl
  wire := rfl

/-- Settles O60: the reset state is a power-on state, and every power-on state is ready with nothing requested. -/
theorem resetHasSpecifiedValues : Obligations.ResetHasSpecifiedValues :=
  ⟨State.reset_powerOn, State.reset_powerOn.ready, State.reset_powerOn.irqRequest⟩

end Sys2Proof.Machine
end

section
/-! PROOFS. What the sequencer's step leaves unchanged, field by field (10_state.md R10, R19, 20_memory.md R47,
40_configuration.md R76, 42_sync_primitive.md R90): read off the cases of the step once, for the proofs that follow. -/

namespace Sys2Proof.Machine

section
variable {s t : State} (h : SeqCase s t)
include h

/-! The shifter's, the host's and the model's own fields, and the operand latches. -/

theorem SeqCase.shreg_eq : t.shreg = s.shreg := by cases h <;> simp
theorem SeqCase.rxbuf_eq : t.rxbuf = s.rxbuf := by cases h <;> simp
theorem SeqCase.busy_eq : t.busy = s.busy := by cases h <;> simp
theorem SeqCase.wire_eq : t.wire = s.wire := by cases h <;> simp
theorem SeqCase.msbf_eq : t.msbf = s.msbf := by cases h <;> simp
theorem SeqCase.bufcap_eq : t.bufcap = s.bufcap := by cases h <;> simp
theorem SeqCase.port_eq : t.port = s.port := by cases h <;> simp
theorem SeqCase.turn_eq : t.turn = s.turn := by cases h <;> simp
theorem SeqCase.tick_eq : t.tick = s.tick := by cases h <;> simp
theorem SeqCase.opc_eq : t.opc = s.opc := by cases h <;> simp
theorem SeqCase.cnt_eq : t.cnt = s.cnt := by cases h <;> simp
theorem SeqCase.adr_eq : t.adr = s.adr := by cases h <;> simp
theorem SeqCase.held_eq : t.held = s.held := by cases h <;> simp

/-- The enable is set by CF_INIT and cleared by no phase. -/
theorem SeqCase.en_of_en (hen : s.en = true) : t.en = true := by cases h <;> simp [hen]

/-- CTL, BRDIV and the pending flags change in CF_INIT only. -/
theorem SeqCase.settings_eq (hp : s.ph ≠ .cfInit) :
    t.en = s.en ∧ t.mst = s.mst ∧ t.m3w = s.m3w ∧ t.ckph = s.ckph ∧ t.ckpl = s.ckpl ∧ t.clksel = s.clksel ∧
      t.brdiv = s.brdiv := by
  cases h <;> simp_all

theorem SeqCase.flags_eq (hp : s.ph ≠ .cfInit) : t.ifgTxe = s.ifgTxe ∧ t.ifgRxf = s.ifgRxf := by
  cases h <;> simp_all

/-- The enables, GIE and WAIT change in the phases of `armAndWait` only. -/
theorem SeqCase.sync_eq (hp : s.ph.inWait = false) :
    t.ieTxe = s.ieTxe ∧ t.ieRxf = s.ieRxf ∧ t.gie = s.gie ∧ t.wait = s.wait := by
  cases h <;> simp_all [Phase.inWait]

/-- The transmit register is written in three phases only. -/
theorem SeqCase.tx_eq (h1 : s.ph ≠ .sbLoop) (h2 : s.ph ≠ .rrAddr) (h3 : s.ph ≠ .rrLoop) :
    t.txbuf = s.txbuf ∧ t.txfull = s.txfull ∧ t.txlog = s.txlog := by
  cases h <;> simp_all

/-- A buffer form's store phase writes the one byte BUF[IDX]; nothing else writes the buffer. -/
theorem SeqCase.buf_cases :
    t.buf = s.buf ∨
    s.wait = false ∧ s.idx.toNat < s.bufcap ∧ ((s.ph = .rbStore ∧ s.opc ≠ 5) ∨ (s.ph = .rrStore ∧ s.opc ≠ 7)) ∧
      t.buf = Memory.write s.buf s.idx.toNat s.rxbuf := by
  cases h <;> simp_all

/-- RES is written in a byte form's store phase only. -/
theorem SeqCase.res_cases :
    t.res = s.res ∨
    ((s.ph = .rbStore ∧ s.opc = 5) ∨ (s.ph = .rrStore ∧ s.opc = 7)) ∧ t.res = s.rxbuf := by
  cases h <;> simp_all

/-- IDX advances in three phases and changes in no other. -/
theorem SeqCase.idx_cases :
    t.idx = s.idx ∨ (s.ph = .sbNext ∨ s.ph = .rbStore ∨ s.ph = .rrDly2) ∧ s.wait = false ∧ t.idx = s.idx + 1 := by
  cases h <;> simp_all [State.nextIdx]

/-- DLY changes in the settling delays only. -/
theorem SeqCase.dly_eq (h1 : s.ph ≠ .rrSet1) (h2 : s.ph ≠ .rrDly1) (h3 : s.ph ≠ .rrSet2) (h4 : s.ph ≠ .rrDly2) :
    t.dly = s.dly := by
  cases h <;> simp_all

/-- EVK and RET change where `armAndWait` is called only. -/
theorem SeqCase.call_eq (h1 : s.ph ≠ .sbLoop) (h2 : s.ph ≠ .rbLoop) (h3 : s.ph ≠ .rrAddr) (h4 : s.ph ≠ .rrDisc)
    (h5 : s.ph ≠ .rrLoop) (h6 : s.ph ≠ .rrStore) : t.evk = s.evk ∧ t.ret = s.ret := by
  cases h <;> simp_all

end

end Sys2Proof.Machine
end

section
/-! PROOFS. The decoder and the encoder are inverse to each other, and the decoder accepts the legal words (30_encoding.md
R56 to R62). A field of an encoded word is the operand it was built from, and a word is the concatenation of its
fields. -/

namespace Sys2Proof

/-- Settles O1: the eight words of the formats, each decoded by evaluation. -/
theorem specWordsDecode : Obligations.SpecWordsDecode := by
  unfold Obligations.SpecWordsDecode
  decide

/-! What the decoder reads under each opcode (R58). -/

section
variable {w : Word}

theorem decode_init (h : w.extractLsb' 28 4 = 1) :
    decode w = .ok (.init (w.extractLsb' 26 2) (w.extractLsb' 0 24) (w.getLsbD 25) (w.getLsbD 24)) := by
  rw [decode, h]; rfl

theorem decode_sendbuf (h : w.extractLsb' 28 4 = 2) (h0 : w.extractLsb' 16 12 = 0) :
    decode w = .ok (.sendbuf (w.extractLsb' 0 16)) := by
  rw [decode, h]; exact if_pos h0

theorem decode_sendbyte (h : w.extractLsb' 28 4 = 3) (h0 : w.extractLsb' 8 20 = 0) :
    decode w = .ok (.sendbyte (w.extractLsb' 0 8)) := by
  rw [decode, h]; exact if_pos h0

theorem decode_recvbuf (h : w.extractLsb' 28 4 = 4) (h0 : w.extractLsb' 16 12 = 0) :
    decode w = .ok (.recvbuf (w.extractLsb' 0 16)) := by
  rw [decode, h]; exact if_pos h0

theorem decode_recvbyte (h : w.extractLsb' 28 4 = 5) (h0 : w.extractLsb' 0 28 = 0) : decode w = .ok .recvbyte := by
  rw [decode, h]; exact if_pos h0

theorem decode_sarecv (h : w.extractLsb' 28 4 = 6) (h0 : w.extractLsb' 24 4 = 0) :
    decode w = .ok (.sarecv (w.extractLsb' 0 8) (w.extractLsb' 8 16)) := by
  rw [decode, h]; exact if_pos h0

theorem decode_sarecvb (h : w.extractLsb' 28 4 = 7) (h0 : w.extractLsb' 8 20 = 0) :
    decode w = .ok (.sarecvb (w.extractLsb' 0 8)) := by
  rw [decode, h]; exact if_pos h0

end

/-! The operands are the fields they were put into (R56). -/

/-- A field of a concatenation that starts above the lower part is a field of the upper part, and one that ends within
the lower part is a field of that; so every field of an encoded word is found by going to its part. -/
theorem decodeEncodeRoundTrip_init (clksel : ClkSel) (rate : Rate) (ckph ckpl : Bool) :
    decode (encode (.init clksel rate ckph ckpl)) = .ok (.init clksel rate ckph ckpl) := by
  have hckph : (encode (.init clksel rate ckph ckpl)).getLsbD 25 = ckph := by
    simp only [encode, BitVec.getLsbD_append]; simp
  have hckpl : (encode (.init clksel rate ckph ckpl)).getLsbD 24 = ckpl := by
    simp only [encode, BitVec.getLsbD_append]; simp
  have hop : (encode (.init clksel rate ckph ckpl)).extractLsb' 28 4 = 1 := by
    simp (disch := omega) only [encode, BitVec.extractLsb'_append_eq_of_le]; rfl
  rw [decode_init hop, hckph, hckpl]
  simp (disch := omega) only [encode, BitVec.extractLsb'_append_eq_of_le,
    BitVec.extractLsb'_append_eq_of_add_le, Nat.reduceSub, BitVec.extractLsb'_eq_self]

/-- Settles O2: format by format, the fields of an encoded word are its opcode, its must-be-zero bits and the operands
it was put together from. -/
theorem decodeEncodeRoundTrip : Obligations.DecodeEncodeRoundTrip := by
  intro i _
  cases i with
  | init clksel rate ckph ckpl => exact decodeEncodeRoundTrip_init clksel rate ckph ckpl
  | sendbuf count => rw [decode_sendbuf] <;> simp (disch := omega) only [encode, BitVec.extractLsb'_append_eq_of_le,
      BitVec.extractLsb'_append_eq_of_add_le, Nat.reduceSub, BitVec.extractLsb'_eq_self] <;> rfl
  | sendbyte byte => rw [decode_sendbyte] <;> simp (disch := omega) only [encode, BitVec.extractLsb'_append_eq_of_le,
      BitVec.extractLsb'_append_eq_of_add_le, Nat.reduceSub, BitVec.extractLsb'_eq_self] <;> rfl
  | recvbuf count => rw [decode_recvbuf] <;> simp (disch := omega) only [encode, BitVec.extractLsb'_append_eq_of_le,
      BitVec.extractLsb'_append_eq_of_add_le, Nat.reduceSub, BitVec.extractLsb'_eq_self] <;> rfl
  | recvbyte => rfl
  | sarecv regaddr count => rw [decode_sarecv] <;> simp (disch := omega) only [encode, BitVec.extractLsb'_append_eq_of_le,
      BitVec.extractLsb'_append_eq_of_add_le, Nat.reduceSub, BitVec.extractLsb'_eq_self] <;> rfl
  | sarecvb regaddr => rw [decode_sarecvb] <;> simp (disch := omega) only [encode, BitVec.extractLsb'_append_eq_of_le,
      BitVec.extractLsb'_append_eq_of_add_le, Nat.reduceSub, BitVec.extractLsb'_eq_self] <;> rfl

/-- A bit is the field of width 1 at its place. -/
theorem ofBool_getLsbD (w : Word) (i : Nat) : BitVec.ofBool (w.getLsbD i) = w.extractLsb' i 1 := by
  ext j hj
  obtain rfl : j = 0 := by omega
  simp

/-- A format with must-be-zero bits is read as its operation exactly where they are clear (R61). -/
theorem eq_of_ite_ok_error_eq_ok {c : Prop} [Decidable c] {i j : Instr} {why : Reject}
    (h : (if c then .ok i else .error why : Except Reject Instr) = .ok j) : c ∧ i = j := by
  have hc := of_ite_ok_error_eq_ok h
  rw [if_pos hc] at h
  exact ⟨hc, Except.ok.inj h⟩

/-- Settles O3: opcode by opcode, the word is the concatenation of its own fields, of which the decoder has compared
the constant ones and returned the others. -/
theorem encodeDecodeRoundTrip : Obligations.EncodeDecodeRoundTrip := by
  intro w i h
  unfold decode at h
  split at h
  next hop =>
    cases h
    have hop : w.extractLsb' 28 4 = 1#4 := BitVec.eq_of_toNat_eq hop
    simp (disch := omega) only [encode, ofBool_getLsbD, ← hop, BitVec.extractLsb'_append_extractLsb'_eq_extractLsb',
      BitVec.extractLsb'_eq_self]
  next hop =>
    have hop : w.extractLsb' 28 4 = 2#4 := BitVec.eq_of_toNat_eq hop
    obtain ⟨hzero : w.extractLsb' 16 12 = 0#12, rfl⟩ := eq_of_ite_ok_error_eq_ok h
    simp (disch := omega) only [encode, ← hop, ← hzero, BitVec.extractLsb'_append_extractLsb'_eq_extractLsb',
      BitVec.extractLsb'_eq_self]
  next hop =>
    have hop : w.extractLsb' 28 4 = 3#4 := BitVec.eq_of_toNat_eq hop
    obtain ⟨hzero : w.extractLsb' 8 20 = 0#20, rfl⟩ := eq_of_ite_ok_error_eq_ok h
    simp (disch := omega) only [encode, ← hop, ← hzero, BitVec.extractLsb'_append_extractLsb'_eq_extractLsb',
      BitVec.extractLsb'_eq_self]
  next hop =>
    have hop : w.extractLsb' 28 4 = 4#4 := BitVec.eq_of_toNat_eq hop
    obtain ⟨hzero : w.extractLsb' 16 12 = 0#12, rfl⟩ := eq_of_ite_ok_error_eq_ok h
    simp (disch := omega) only [encode, ← hop, ← hzero, BitVec.extractLsb'_append_extractLsb'_eq_extractLsb',
      BitVec.extractLsb'_eq_self]
  next hop =>
    have hop : w.extractLsb' 28 4 = 5#4 := BitVec.eq_of_toNat_eq hop
    obtain ⟨hzero : w.extractLsb' 0 28 = 0#28, rfl⟩ := eq_of_ite_ok_error_eq_ok h
    simp (disch := omega) only [encode, ← hop, ← hzero, BitVec.extractLsb'_append_extractLsb'_eq_extractLsb',
      BitVec.extractLsb'_eq_self]
  next hop =>
    have hop : w.extractLsb' 28 4 = 6#4 := BitVec.eq_of_toNat_eq hop
    obtain ⟨hzero : w.extractLsb' 24 4 = 0#4, rfl⟩ := eq_of_ite_ok_error_eq_ok h
    simp (disch := omega) only [encode, ← hop, ← hzero, BitVec.extractLsb'_append_extractLsb'_eq_extractLsb',
      BitVec.extractLsb'_eq_self]
  next hop =>
    have hop : w.extractLsb' 28 4 = 7#4 := BitVec.eq_of_toNat_eq hop
    obtain ⟨hzero : w.extractLsb' 8 20 = 0#20, rfl⟩ := eq_of_ite_ok_error_eq_ok h
    simp (disch := omega) only [encode, ← hop, ← hzero, BitVec.extractLsb'_append_extractLsb'_eq_extractLsb',
      BitVec.extractLsb'_eq_self]
  next => cases h

/-- A selected row fixes the fields of the word that its mask covers. -/
theorem extractLsb'_of_selects {r : Row} {w : Word} (h : r.selects w = true) (start : Nat) {len : Nat}
    (hmask : r.mask.extractLsb' start len = BitVec.allOnes len) :
    w.extractLsb' start len = r.pattern.extractLsb' start len := by
  rw [← beq_iff_eq.mp h, BitVec.extractLsb'_and, hmask, BitVec.and_allOnes]

/-- A legal word is read as an operation: the row it selects is that of an opcode, and the row's mask covers the opcode
and the must-be-zero bits. -/
theorem exists_decode_eq_ok_of_legalWord {w : Word} (h : legalWord w = true) : ∃ i, decode w = .ok i := by
  obtain ⟨r, hr, hsel⟩ := List.any_eq_true.mp h
  have hfield := fun start len => extractLsb'_of_selects hsel start (len := len)
  simp only [opcodeMap, List.mem_cons, List.not_mem_nil, or_false] at hr
  obtain rfl | rfl | rfl | rfl | rfl | rfl | rfl := hr
  · exact ⟨_, decode_init (hfield 28 4 rfl)⟩
  · exact ⟨_, decode_sendbuf (hfield 28 4 rfl) (hfield 16 12 rfl)⟩
  · exact ⟨_, decode_sendbyte (hfield 28 4 rfl) (hfield 8 20 rfl)⟩
  · exact ⟨_, decode_recvbuf (hfield 28 4 rfl) (hfield 16 12 rfl)⟩
  · exact ⟨_, decode_recvbyte (hfield 28 4 rfl) (hfield 0 28 rfl)⟩
  · exact ⟨_, decode_sarecv (hfield 28 4 rfl) (hfield 24 4 rfl)⟩
  · exact ⟨_, decode_sarecvb (hfield 28 4 rfl) (hfield 8 20 rfl)⟩

/-- Settles O4: a legal word selects a row, whose fields the decoder checks; a word the decoder reads selects the row of
its opcode. -/
theorem decoderAcceptsExactlyLegalWords : Obligations.DecoderAcceptsExactlyLegalWords :=
  fun _ => ⟨exists_decode_eq_ok_of_legalWord, fun ⟨_, h⟩ => legalWord_of_decode_eq_ok h⟩

end Sys2Proof
end

section
/-! PROOFS. What every issue step leaves unchanged (30_encoding.md R59): all but OPC, CNT, IDX, ADR, PH and INIT's held
operands. -/

namespace Sys2Proof.Machine

@[simp] theorem issue_en (i : Instr) (s : State) : (issue i s).en = s.en := by cases i <;> rfl
@[simp] theorem issue_mst (i : Instr) (s : State) : (issue i s).mst = s.mst := by cases i <;> rfl
@[simp] theorem issue_m3w (i : Instr) (s : State) : (issue i s).m3w = s.m3w := by cases i <;> rfl
@[simp] theorem issue_msbf (i : Instr) (s : State) : (issue i s).msbf = s.msbf := by cases i <;> rfl
@[simp] theorem issue_ckph (i : Instr) (s : State) : (issue i s).ckph = s.ckph := by cases i <;> rfl
@[simp] theorem issue_ckpl (i : Instr) (s : State) : (issue i s).ckpl = s.ckpl := by cases i <;> rfl
@[simp] theorem issue_clksel (i : Instr) (s : State) : (issue i s).clksel = s.clksel := by cases i <;> rfl
@[simp] theorem issue_brdiv (i : Instr) (s : State) : (issue i s).brdiv = s.brdiv := by cases i <;> rfl
@[simp] theorem issue_ieTxe (i : Instr) (s : State) : (issue i s).ieTxe = s.ieTxe := by cases i <;> rfl
@[simp] theorem issue_ieRxf (i : Instr) (s : State) : (issue i s).ieRxf = s.ieRxf := by cases i <;> rfl
@[simp] theorem issue_ifgTxe (i : Instr) (s : State) : (issue i s).ifgTxe = s.ifgTxe := by cases i <;> rfl
@[simp] theorem issue_ifgRxf (i : Instr) (s : State) : (issue i s).ifgRxf = s.ifgRxf := by cases i <;> rfl
@[simp] theorem issue_busy (i : Instr) (s : State) : (issue i s).busy = s.busy := by cases i <;> rfl
@[simp] theorem issue_txbuf (i : Instr) (s : State) : (issue i s).txbuf = s.txbuf := by cases i <;> rfl
@[simp] theorem issue_txfull (i : Instr) (s : State) : (issue i s).txfull = s.txfull := by cases i <;> rfl
@[simp] theorem issue_shreg (i : Instr) (s : State) : (issue i s).shreg = s.shreg := by cases i <;> rfl
@[simp] theorem issue_rxbuf (i : Instr) (s : State) : (issue i s).rxbuf = s.rxbuf := by cases i <;> rfl
@[simp] theorem issue_dly (i : Instr) (s : State) : (issue i s).dly = s.dly := by cases i <;> rfl
@[simp] theorem issue_evk (i : Instr) (s : State) : (issue i s).evk = s.evk := by cases i <;> rfl
@[simp] theorem issue_ret (i : Instr) (s : State) : (issue i s).ret = s.ret := by cases i <;> rfl
@[simp] theorem issue_res (i : Instr) (s : State) : (issue i s).res = s.res := by cases i <;> rfl
@[simp] theorem issue_gie (i : Instr) (s : State) : (issue i s).gie = s.gie := by cases i <;> rfl
@[simp] theorem issue_txlog (i : Instr) (s : State) : (issue i s).txlog = s.txlog := by cases i <;> rfl
@[simp] theorem issue_wire (i : Instr) (s : State) : (issue i s).wire = s.wire := by cases i <;> rfl
@[simp] theorem issue_port (i : Instr) (s : State) : (issue i s).port = s.port := by cases i <;> rfl
@[simp] theorem issue_buf (i : Instr) (s : State) : (issue i s).buf = s.buf := by cases i <;> rfl
@[simp] theorem issue_bufcap (i : Instr) (s : State) : (issue i s).bufcap = s.bufcap := by cases i <;> rfl
@[simp] theorem issue_turn (i : Instr) (s : State) : (issue i s).turn = s.turn := by cases i <;> rfl
@[simp] theorem issue_tick (i : Instr) (s : State) : (issue i s).tick = s.tick := by cases i <;> rfl
@[simp] theorem issue_opc (i : Instr) (s : State) : (issue i s).opc = i.opcode := by cases i <;> rfl
@[simp] theorem issue_idx (i : Instr) (s : State) : (issue i s).idx = 0 := by cases i <;> rfl

/-- An operation starts outside `armAndWait`. -/
@[simp] theorem issue_ph_inWait (i : Instr) (s : State) : (issue i s).ph.inWait = false := by cases i <;> rfl

/-- Before issue nothing is told of the operation but its first phase. -/
theorem issue_ph_cases (i : Instr) (s : State) :
    (issue i s).ph = .cfInit ∨ (issue i s).ph = .sbLoop ∨ (issue i s).ph = .rbLoop ∨ (issue i s).ph = .rrAddr := by
  cases i <;> simp [issue, issueInit, issueSendbuf, issueSendbyte, issueRecvbuf, issueRecvbyte, issueSarecv, issueSarecvb,
    State.start]

end Sys2Proof.Machine
end

section
/-! PROOFS. The arming invariant (10_state.md R26, 42_sync_primitive.md R97): outside `armAndWait` it says that nothing is
armed and WAIT = 0; the four phases of `armAndWait` are taken one by one. -/

namespace Sys2Proof.Machine

theorem State.ie_eq_false_iff (s : State) : (∀ k, s.ie k = false) ↔ s.ieTxe = false ∧ s.ieRxf = false :=
  ⟨fun h => ⟨h .txe, h .rxf⟩, fun ⟨htxe, hrxf⟩ k => by cases k <;> assumption⟩

/-- A wait continues outside `armAndWait`. -/
theorem Phase.inWait_eq_false_of_continues {p : Phase} {k : Event} (h : p.continues k = true) : p.inWait = false := by
  cases p <;> simp_all [Phase.continues, Phase.inWait]

/-- Outside `armAndWait` nothing is armed and nobody waits, and the other clauses say nothing. -/
theorem State.armInv_iff_of_outside {s : State} (hp : s.ph.inWait = false) :
    s.ArmInv ↔ s.ieTxe = false ∧ s.ieRxf = false ∧ s.wait = false := by
  have h2 : s.ph ≠ .aw2 := by rintro h; simp [h, Phase.inWait] at hp
  have h3 : s.ph ≠ .aw3 := by rintro h; simp [h, Phase.inWait] at hp
  have h5 : s.ph ≠ .aw5 := by rintro h; simp [h, Phase.inWait] at hp
  constructor
  · intro h
    have hie : ∀ k, s.ie k = false := fun k => by simpa [h3, h5] using h.armed k
    exact ⟨hie .txe, hie .rxf, by simpa [h5] using h.waiting⟩
  · rintro ⟨htxe, hrxf, hw⟩
    have hie := s.ie_eq_false_iff.mpr ⟨htxe, hrxf⟩
    exact ⟨by simp [hie, h3, h5], by simp [h2, h3], by simp [h5], by simp [hw], by simp [hp]⟩

/-- The wait is over in every phase but AW5. -/
theorem State.ArmInv.wait_eq_false {s : State} (h : s.ArmInv) (hp : s.ph ≠ .aw5) : s.wait = false := by
  simpa [hp] using h.waiting

/-- Only the awaited source is ever armed, and only from AW2's step to AW5's. -/
theorem State.ArmInv.of_armed {s : State} (h : s.ArmInv) {k : Event} (hk : s.ie k = true) :
    k = s.evk ∧ (s.ph = .aw3 ∨ s.ph = .aw5) := (h.armed k).mp hk

/-- With delivery on, a signaled source is the awaited one and the sequencer is in phase AW5. -/
theorem State.ArmInv.of_delivered {s : State} (h : s.ArmInv) {k : Event} (hg : s.gie = true)
    (hk : s.signaled k = true) : k = s.evk ∧ s.ph = .aw5 ∧ s.ifg k = true := by
  obtain ⟨hifg, hie⟩ := Bool.and_eq_true_iff.mp hk
  obtain ⟨he, hp | hp⟩ := h.of_armed hie
  · rw [h.masked (.inr hp)] at hg
    cases hg
  · exact ⟨he, hp, hifg⟩

/-- Outside `armAndWait` the sequencer stays outside or calls it for a continuation of the awaited event (R90). -/
theorem SeqCase.outside_cases {s t : State} (h : SeqCase s t) (hp : s.ph.inWait = false) :
    t.ph.inWait = false ∨ t.ph = .aw1 ∧ t.ret.continues t.evk = true := by
  cases h <;> simp_all [Phase.inWait, Phase.continues]

@[simp] theorem State.aw1_ie (j : Event) (s : State) : s.aw1.ie j = s.ie j := by cases j <;> rfl
@[simp] theorem State.aw3_ie (j : Event) (s : State) : s.aw3.ie j = s.ie j := by cases j <;> rfl

/-- Every step of the sequencer keeps the arming invariant. -/
theorem SeqCase.keeps_armInv {s t : State} (h : SeqCase s t) (hs : s.ArmInv) : t.ArmInv := by
  cases hp : s.ph.inWait with
  | false =>
    obtain ⟨htxe, hrxf, -, hw⟩ := h.sync_eq hp
    obtain ⟨h1, h2, h3⟩ := (State.armInv_iff_of_outside hp).mp hs
    obtain hp' | ⟨hp', hret⟩ := h.outside_cases hp
    · exact (State.armInv_iff_of_outside hp').mpr ⟨htxe.trans h1, hrxf.trans h2, hw.trans h3⟩
    · have hie := t.ie_eq_false_iff.mpr ⟨htxe.trans h1, hrxf.trans h2⟩
      exact ⟨by simp [hie, hp'], by simp [hp'], by simp [hp'], by simp [hw.trans h3], fun _ => hret⟩
  | true =>
    have hret := hs.returns hp
    cases h with
    | waiting => exact hs
    | aw1 hw hp => exact ⟨fun k => by simpa [hp] using hs.armed k, by simp, by simp, by simp [hw], fun _ => hret⟩
    | aw2 hw hp =>
      have hie : ∀ k, s.ie k = false := fun k => by simpa [hp] using hs.armed k
      exact ⟨by simp [hie], by simp [hs.masked (.inl hp)], by simp, by simp [hw], fun _ => by simpa using hret⟩
    | aw3 hw hp => exact ⟨fun k => by simpa [hp] using hs.armed k, by simp, by simp, by simp, fun _ => hret⟩
    | aw5 hw hp =>
      have hie : ∀ k, s.aw5.ie k = false := fun k => by
        have harmed : s.ie k = true ↔ k = s.evk := by simpa [hp] using hs.armed k
        simp only [State.aw5_ie, ite_eq_left_iff]
        exact fun hne => Bool.eq_false_iff.mpr (mt harmed.mp hne)
      exact (State.armInv_iff_of_outside (Phase.inWait_eq_false_of_continues hret)).mpr
        ⟨hie .txe, hie .rxf, by simpa using hw⟩
    | _ => simp_all [Phase.inWait]

/-- Every step of every agent keeps the arming invariant: the host moves in phase IDLE only, the shifter writes nothing
the invariant speaks of, the handler only ends the wait. -/
theorem agentStep_keeps_armInv {a : Agent} {s t : State} (h : agentStep a s = .next t) (hs : s.ArmInv) : t.ArmInv := by
  obtain ⟨-, h⟩ | ⟨-, h⟩ | ⟨-, h⟩ | ⟨-, h⟩ := agentStep_cases h
  · obtain ⟨hp, w, i, -, -, rfl⟩ | ⟨-, -, m, rfl⟩ | rfl := hostStep_cases h
    · have hidle := (State.armInv_iff_of_outside (by simp [hp, Phase.inWait])).mp hs
      exact (State.armInv_iff_of_outside (by simp)).mpr (by simpa using hidle)
    · exact ⟨hs.armed, hs.masked, hs.delivering, hs.waiting, hs.returns⟩
    · exact hs
  · exact h.keeps_armInv hs
  · obtain ⟨-, rfl⟩ | ⟨-, -, rfl⟩ | ⟨-, -, rfl⟩ := shfStep_cases h
    · exact ⟨hs.armed, hs.masked, hs.delivering, hs.waiting, hs.returns⟩
    · exact ⟨hs.armed, hs.masked, hs.delivering, hs.waiting, hs.returns⟩
    · exact hs
  · obtain ⟨-, -, rfl⟩ | ⟨-, -, -, rfl⟩ | ⟨-, rfl⟩ := irqStep_cases h
    · exact ⟨hs.armed, hs.masked, hs.delivering, by simp, hs.returns⟩
    · exact ⟨hs.armed, hs.masked, hs.delivering, by simp, hs.returns⟩
    · exact hs

theorem State.ArmInv.advance {s : State} (h : s.ArmInv) : s.advance.ArmInv :=
  ⟨h.armed, h.masked, h.delivering, h.waiting, h.returns⟩

/-- Settles O22: each agent's step keeps the invariant, and drawing who moves next touches none of its fields. -/
theorem armingInvariantKept : Obligations.ArmingInvariantKept :=
  fun _ _ hs h => agentStep_keeps_armInv h hs.advance

/-- Settles O23: a power-on state is idle with nothing armed and no wait. -/
theorem armingInvariantAtPowerOn : Obligations.ArmingInvariantAtPowerOn := fun s h =>
  (State.armInv_iff_of_outside (by simp [h.ph, Phase.inWait])).mpr ⟨h.ieTxe, h.ieRxf, h.wait⟩

/-- Settles O24: an armed source is EVK, so two armed sources would be equal, and the wait is held in phase AW5 only. -/
theorem exactlyAwaitedSourceArmed : Obligations.ExactlyAwaitedSourceArmed := by
  intro s h
  have hone : ¬(s.ie .txe = true ∧ s.ie .rxf = true) := fun ⟨htxe, hrxf⟩ => by
    have heq := (h.of_armed htxe).1.trans (h.of_armed hrxf).1.symm
    cases heq
  refine ⟨hone, fun ⟨htxe, hrxf⟩ => hone ⟨?_, ?_⟩, fun hw k => ?_⟩
  · exact (Bool.and_eq_true_iff.mp htxe).2
  · exact (Bool.and_eq_true_iff.mp hrxf).2
  · simpa [h.waiting hw] using h.armed k

end Sys2Proof.Machine
end

section
/-! PROOFS. The exchange invariant (70_reset_and_hazards.md R161, 41_bus_controller_shifter.md R89). Outside
`armAndWait` a byte is pending only before a transmit-empty wait; the sequencer writes the transmit register only where
none is. -/

namespace Sys2Proof.Machine

/-! The stage of the operation, and whether a byte is pending there. -/

theorem State.stage_of_outside {s : State} (hp : s.ph.inWait = false) : s.stage = s.ph := by simp [State.stage, hp]

theorem State.stage_of_inWait {s : State} (hp : s.ph.inWait = true) : s.stage = s.ret := by simp [State.stage, hp]

theorem State.bytePending_of_outside {s : State} (hp : s.ph.inWait = false) :
    s.bytePending = (s.ph == .rrDisc || s.ph == .rrStore) := by
  simp [State.bytePending, State.stage, hp]

/-- A wait is released in phase AW5 only. -/
theorem State.released_of_ne {s : State} (hp : s.ph ≠ .aw5) : s.released = false := by simp [State.released, hp]

theorem State.released_of_aw5 {s : State} (hp : s.ph = .aw5) : s.released = !s.wait := by simp [State.released, hp]

@[simp] theorem State.aw1_released (s : State) : s.aw1.released = false := State.released_of_ne (by simp)
@[simp] theorem State.aw2_released (s : State) : s.aw2.released = false := State.released_of_ne (by simp)
@[simp] theorem State.aw3_released (s : State) : s.aw3.released = false := by simp [State.released]

/-- The clauses of the exchange invariant outside `armAndWait`, where nothing is pending or a transmit-empty wait is
due. -/
theorem State.exchangeInv_iff_of_outside {s : State} (hp : s.ph.inWait = false) :
    s.ExchangeInv ↔ s.ArmInv ∧ (if s.ph = .rrDisc ∨ s.ph = .rrStore then s.txfull = !s.ifgTxe
      else s.txfull = false ∧ s.ifgTxe = false) := by
  have hb := State.bytePending_of_outside hp
  constructor
  · intro h
    refine ⟨h.toArmInv, ?_⟩
    split
    next hc => exact h.pending (by simp [hb, hc])
    next hc => exact h.clear (by simpa [hb] using hc)
  · rintro ⟨ha, h⟩
    refine ⟨ha, fun hpend => ?_, fun hclear => ?_, by simp [hp]⟩
    · rwa [if_pos (by simpa [hb] using hpend)] at h
    · rwa [if_neg (by simpa [hb] using hclear)] at h

/-- Where `armAndWait` is called nothing has been released, so what its event is decides what is pending. -/
theorem State.exchangeInv_of_called {s : State} (hp : s.ph = .aw1) (ha : s.ArmInv)
    (hpend : s.evk = .txe ∨ s.ret = .rrDisc ∨ s.ret = .rrStore → s.txfull = !s.ifgTxe)
    (hclear : s.ret = .rbStore → s.txfull = false ∧ s.ifgTxe = false)
    (hcoming : s.ret = .rrDisc ∨ s.ret = .rrStore → s.txfull = true) : s.ExchangeInv := by
  have hret := ha.returns (by simp [hp, Phase.inWait])
  refine ⟨ha, fun h => hpend ?_, fun h => hclear ?_, fun _ h _ => .inl (hcoming h)⟩
  · simpa [State.bytePending, State.stage, State.released, hp, Phase.inWait, or_assoc] using h
  · have hret' : s.ret.continues .rxf = true ∧ s.ret ≠ .rrDisc ∧ s.ret ≠ .rrStore := by
      cases he : s.evk <;> simp_all [State.bytePending, State.stage, State.released, Phase.inWait]
    revert hret'
    cases s.ret <;> simp [Phase.continues]

/-- A step that leaves the transmit side and what is pending on it alone. -/
theorem State.ExchangeInv.of_same_pending {s t : State} (hs : s.ExchangeInv) (ha : t.ArmInv)
    (hb : t.bytePending = s.bytePending) (hfull : t.txfull = s.txfull) (hifg : t.ifgTxe = s.ifgTxe)
    (hcoming : t.ph.inWait = true → t.ret = .rrDisc ∨ t.ret = .rrStore → t.released = false →
      t.txfull = true ∨ t.busy = true ∨ t.ifgRxf = true) : t.ExchangeInv where
  toArmInv := ha
  pending h := by rw [hfull, hifg]; exact hs.pending (hb ▸ h)
  clear h := by rw [hfull, hifg]; exact hs.clear (hb ▸ h)
  coming := hcoming

/-- Every step of the sequencer keeps the exchange invariant. -/
theorem SeqCase.keeps_exchangeInv {s t : State} (h : SeqCase s t) (hs : s.ExchangeInv) : t.ExchangeInv := by
  have ha := h.keeps_armInv hs.toArmInv
  cases hp : s.ph.inWait with
  | false =>
    have hout := ((State.exchangeInv_iff_of_outside hp).mp hs).2
    cases h
    case waiting => exact hs
    case sbWrite | rbWait | rrAddr | rrDisc | rrWrite | rrStoreRes | rrStoreBuf =>
      apply State.exchangeInv_of_called <;> simp_all
    all_goals refine (State.exchangeInv_iff_of_outside ?_).mpr ⟨ha, ?_⟩ <;> simp_all [Phase.inWait]
  | true =>
    have hcoming := hs.coming hp
    cases h
    case waiting => exact hs
    case aw5 hw hp5 =>
      have hret := Phase.inWait_eq_false_of_continues (hs.returns hp)
      refine hs.of_same_pending ha ?_ (by simp) (by simp) (by simp [hret])
      rw [State.bytePending_of_outside (by simpa using hret)]
      simp [State.bytePending, State.stage, State.released, hp5, hw, Phase.inWait]
    case aw1 hw hp | aw2 hw hp | aw3 hw hp =>
      apply hs.of_same_pending ha
      all_goals simp_all [State.bytePending, State.stage, State.released_of_ne, Phase.inWait]
    all_goals simp_all [Phase.inWait]

/-- Nothing is queued and no transmit-empty is pending in phase IDLE, so an operation starts with neither. -/
theorem State.ExchangeInv.issue {s : State} (hs : s.ExchangeInv) (hp : s.ph = .idle) (w : Option Word) (i : Instr) :
    (issue i { s with port := w }).ExchangeInv := by
  have hout := (State.exchangeInv_iff_of_outside (by simp [hp, Phase.inWait])).mp hs
  have harm := (State.armInv_iff_of_outside (by simp [hp, Phase.inWait])).mp hout.1
  have hclear : s.txfull = false ∧ s.ifgTxe = false := by simpa [hp] using hout.2
  refine (State.exchangeInv_iff_of_outside (by simp)).mpr ⟨(State.armInv_iff_of_outside (by simp)).mpr ?_, ?_⟩
  · simpa using harm
  · rw [if_neg]
    · simpa using hclear
    · obtain h | h | h | h := issue_ph_cases i { s with port := w } <;> simp [h]

/-- LOAD takes the queued byte and raises transmit-empty; COMPLETE raises receive-full. -/
theorem shfStep_keeps_exchangeInv {s t : State} (h : shfStep s = .next t) (hs : s.ExchangeInv)
    (ha : t.ArmInv) : t.ExchangeInv := by
  obtain ⟨hl, rfl⟩ | ⟨-, -, rfl⟩ | ⟨-, -, rfl⟩ := shfStep_cases h
  · have hfull : s.txfull = true := by simp_all [State.canLoad]
    have hpend : s.bytePending = true := by
      by_contra hb
      simp [hs.clear (by simpa using hb)] at hfull
    refine ⟨ha, by simp, fun hb => ?_, by simp⟩
    have : s.load.bytePending = s.bytePending := rfl
    simp_all
  · exact hs.of_same_pending ha rfl rfl rfl (by simp)
  · exact hs

/-- The handler takes the awaited event: receive-full leaves what is pending on the transmit side, transmit-empty
accounts for the byte that raised it. -/
theorem irqStep_keeps_exchangeInv {s t : State} (h : irqStep s = .next t) (hs : s.ExchangeInv)
    (ha : t.ArmInv) : t.ExchangeInv := by
  obtain ⟨hg, hr, rfl⟩ | ⟨hg, -, hx, rfl⟩ | ⟨-, rfl⟩ := irqStep_cases h
  · obtain ⟨he, hp, -⟩ := hs.of_delivered hg hr
    refine hs.of_same_pending ha ?_ rfl rfl (by simp [State.released, hp])
    have hne : (Event.rxf == Event.txe) = false := rfl
    simp [State.bytePending, State.stage, ← he, hne]
  · obtain ⟨he, hp, hifg⟩ := hs.of_delivered hg hx
    have hret := hs.returns (by simp [hp, Phase.inWait])
    have hnone : s.stage ≠ .rrDisc ∧ s.stage ≠ .rrStore := by
      rw [State.stage_of_inWait (by simp [hp, Phase.inWait])]
      constructor <;> intro hc <;> simp [← he, hc, Phase.continues] at hret
    have hfull : s.txfull = false := by
      cases hb : s.bytePending with
      | true => simpa [show s.ifgTxe = true from hifg] using hs.pending hb
      | false => exact (hs.clear hb).1
    refine ⟨ha, fun hb => ?_, fun _ => ⟨hfull, rfl⟩, by simp [State.released, hp]⟩
    simp_all [State.bytePending, State.stage, State.released]
  · exact hs

/-- Every step of every agent keeps the exchange invariant. -/
theorem agentStep_keeps_exchangeInv {a : Agent} {s t : State} (h : agentStep a s = .next t) (hs : s.ExchangeInv) :
    t.ExchangeInv := by
  have ha := agentStep_keeps_armInv h hs.toArmInv
  obtain ⟨-, h⟩ | ⟨-, h⟩ | ⟨-, h⟩ | ⟨-, h⟩ := agentStep_cases h
  · obtain ⟨hp, w, i, -, -, rfl⟩ | ⟨-, -, m, rfl⟩ | rfl := hostStep_cases h
    · exact hs.issue hp none i
    · exact ⟨ha, hs.pending, hs.clear, hs.coming⟩
    · exact hs
  · exact h.keeps_exchangeInv hs
  · exact shfStep_keeps_exchangeInv h hs ha
  · exact irqStep_keeps_exchangeInv h hs ha

theorem State.ExchangeInv.advance {s : State} (h : s.ExchangeInv) : s.advance.ExchangeInv :=
  ⟨h.toArmInv.advance, h.pending, h.clear, h.coming⟩

/-- Settles O47: each agent's step keeps the invariant, and drawing who moves next touches none of its fields. -/
theorem exchangeInvariantKept : Obligations.ExchangeInvariantKept :=
  fun _ _ hs h => agentStep_keeps_exchangeInv h hs.advance

/-- Settles O48: phase IDLE is outside `armAndWait`, with no byte pending. -/
theorem exchangeInvariantWhenIdle : Obligations.ExchangeInvariantWhenIdle := by
  intro s hp
  have hout : s.ph.inWait = false := by simp [hp, Phase.inWait]
  rw [State.exchangeInv_iff_of_outside hout, State.armInv_iff_of_outside hout]
  simp [hp, and_assoc, and_comm (a := s.txfull = false)]

/-- Settles O49: TXLOG grows only in a writing phase, which is outside `armAndWait` and has no byte pending. -/
theorem noQueuedByteOverwritten : Obligations.NoQueuedByteOverwritten := by
  intro s t hs h hlog
  obtain ⟨-, h⟩ | ⟨-, h⟩ | ⟨-, h⟩ | ⟨-, h⟩ := agentStep_cases h
  · obtain ⟨-, w, i, -, -, rfl⟩ | ⟨-, -, m, rfl⟩ | rfl := hostStep_cases h <;> simp at hlog
  · have hp : s.ph = .sbLoop ∨ s.ph = .rrAddr ∨ s.ph = .rrLoop := by
      by_contra hc
      simp only [not_or] at hc
      exact hlog (h.tx_eq hc.1 hc.2.1 hc.2.2).2.2
    have hout := ((State.exchangeInv_iff_of_outside (by obtain h | h | h := hp <;> simp [h, Phase.inWait])).mp hs).2
    rw [if_neg (by obtain h | h | h := hp <;> simp [h])] at hout
    exact hout.1
  · obtain ⟨-, rfl⟩ | ⟨-, -, rfl⟩ | ⟨-, -, rfl⟩ := shfStep_cases h <;> simp at hlog
  · obtain ⟨-, -, rfl⟩ | ⟨-, -, -, rfl⟩ | ⟨-, rfl⟩ := irqStep_cases h <;> simp at hlog

end Sys2Proof.Machine
end

section
/-! PROOFS. The loop position (10_state.md R19, 00_scope.md R6): it advances only below the count, so it never wraps. -/

namespace Sys2Proof.Machine

/-- Below a count the loop position does not wrap. -/
theorem toNat_succ_of_lt {i c : Count} (h : i < c) : (i + 1).toNat = i.toNat + 1 := by
  have := c.isLt
  rw [BitVec.lt_def] at h
  rw [BitVec.toNat_add]
  exact Nat.mod_eq_of_lt (by simpa using (by omega : i.toNat + 1 < 2 ^ 16))

theorem succ_le_of_lt {i c : Count} (h : i < c) : i + 1 ≤ c := by
  rw [BitVec.le_def, toNat_succ_of_lt h]
  exact BitVec.lt_def.mp h

/-- The loop position is below the count wherever a step advances it. -/
theorem State.IdxInv.lt_of_advancing {s : State} (h : s.IdxInv) (hp : s.ph = .sbNext ∨ s.ph = .rbStore ∨ s.ph = .rrDly2) :
    s.idx < s.cnt := by
  apply h.lt
  obtain hp | hp | hp := hp <;> simp [State.stage, hp, Phase.inWait, Phase.insideLoop]

/-- Where the sequencer goes on inside the loop: the stage is kept, or it is the one after a loop head with a byte to
go, or the one after a stage inside the loop. -/
theorem SeqCase.insideLoop_cases {s t : State} (h : SeqCase s t) (ha : s.ArmInv) (hin : t.stage.insideLoop = true) :
    t.idx = s.idx ∧ (s.stage.insideLoop = true ∨ s.more = true) := by
  cases h
  case waiting | idle => exact ⟨rfl, .inl hin⟩
  case aw1 hw hp | aw2 hw hp | aw3 hw hp => simp_all [State.stage, Phase.inWait]
  case aw5 hw hp =>
    have hret := Phase.inWait_eq_false_of_continues (ha.returns (by simp [hp, Phase.inWait]))
    simp_all [State.stage, Phase.inWait]
  all_goals simp_all [State.stage, Phase.inWait, Phase.insideLoop]

/-- While an operation runs the sequencer keeps the range of the loop position. -/
theorem SeqCase.keeps_idxInv {s t : State} (h : SeqCase s t) (ha : s.ArmInv) (hs : s.IdxInv) : t.IdxInv where
  le hp := by
    have hrunning : s.ph ≠ .idle := fun hidle => hp (by cases h <;> simp_all)
    rw [h.cnt_eq]
    obtain hidx | ⟨hadv, -, hidx⟩ := h.idx_cases
    · exact hidx ▸ hs.le hrunning
    · exact hidx ▸ succ_le_of_lt (hs.lt_of_advancing hadv)
  lt hin := by
    obtain ⟨hidx, hin' | hmore⟩ := h.insideLoop_cases ha hin
    · exact hidx ▸ h.cnt_eq ▸ hs.lt hin'
    · exact hidx ▸ h.cnt_eq ▸ s.more_iff.mp hmore

/-- An operation starts at loop position 0, before its loop. -/
theorem issue_idxInv (i : Instr) (s : State) : (issue i s).IdxInv where
  le _ := BitVec.le_def.mpr (by simp)
  lt h := by
    rw [State.stage_of_outside (by simp)] at h
    obtain hp | hp | hp | hp := issue_ph_cases i s <;> simp [hp, Phase.insideLoop] at h

/-- Every step of every agent keeps the range of the loop position. -/
theorem agentStep_keeps_idxInv {a : Agent} {s t : State} (h : agentStep a s = .next t) (ha : s.ArmInv) (hs : s.IdxInv) :
    t.IdxInv := by
  obtain ⟨-, h⟩ | ⟨-, h⟩ | ⟨-, h⟩ | ⟨-, h⟩ := agentStep_cases h
  · obtain ⟨-, w, i, -, -, rfl⟩ | ⟨-, -, m, rfl⟩ | rfl := hostStep_cases h
    · exact issue_idxInv i _
    · exact ⟨hs.le, hs.lt⟩
    · exact hs
  · exact h.keeps_idxInv ha hs
  · obtain ⟨-, rfl⟩ | ⟨-, -, rfl⟩ | ⟨-, -, rfl⟩ := shfStep_cases h <;> exact ⟨hs.le, hs.lt⟩
  · obtain ⟨-, -, rfl⟩ | ⟨-, -, -, rfl⟩ | ⟨-, rfl⟩ := irqStep_cases h <;> exact ⟨hs.le, hs.lt⟩

theorem State.IdxInv.advance {s : State} (h : s.IdxInv) : s.advance.IdxInv := ⟨h.le, h.lt⟩

/-- In phase IDLE the loop position is not in use. -/
theorem State.idxInv_of_idle {s : State} (hp : s.ph = .idle) : s.IdxInv where
  le h := absurd hp h
  lt h := by simp [State.stage, hp, Phase.inWait, Phase.insideLoop] at h

/-- Settles O52: besides the host only the sequencer writes IDX, and where it advances IDX is below the count. -/
theorem loopPositionStaysInRange : Obligations.LoopPositionStaysInRange := by
  refine ⟨fun s t ha hs h => ⟨agentStep_keeps_idxInv h ha.advance hs.advance, fun hhost hne => ?_⟩,
    fun s => State.idxInv_of_idle⟩
  obtain ⟨hturn, -⟩ | ⟨-, h⟩ | ⟨-, h⟩ | ⟨-, h⟩ := agentStep_cases h
  · exact absurd hturn hhost
  · obtain hidx | ⟨hadv, -, hidx⟩ := h.idx_cases
    · exact absurd hidx hne
    · rw [hidx]
      exact toNat_succ_of_lt (hs.lt_of_advancing hadv)
  · obtain ⟨-, rfl⟩ | ⟨-, -, rfl⟩ | ⟨-, -, rfl⟩ := shfStep_cases h <;> exact absurd rfl hne
  · obtain ⟨-, -, rfl⟩ | ⟨-, -, -, rfl⟩ | ⟨-, rfl⟩ := irqStep_cases h <;> exact absurd rfl hne

end Sys2Proof.Machine
end

section
/-! PROOFS. Which step writes which flag (10_state.md R25, R13, R14, R21, R22), and what no step takes back (R11, R24,
R17). -/

namespace Sys2Proof.Machine

/-! The flags at the sequencer's turn. -/

section
variable {s t : State} (h : SeqCase s t)
include h

theorem SeqCase.ifg_cases :
    t.ifgTxe = s.ifgTxe ∧ t.ifgRxf = s.ifgRxf ∨ s.ph = .cfInit ∧ t.ifgTxe = false ∧ t.ifgRxf = false := by
  by_cases hp : s.ph = .cfInit
  · cases h <;> simp_all
  · exact .inl (h.flags_eq hp)

theorem SeqCase.txfull_cases :
    t.txfull = s.txfull ∨ (s.ph = .sbLoop ∨ s.ph = .rrAddr ∨ s.ph = .rrLoop) ∧ t.txfull = true := by
  cases h <;> simp_all

theorem SeqCase.txlog_cases : t.txlog = s.txlog ∨ ∃ v, t.txlog = s.txlog ++ [v] := by
  cases h <;> simp

theorem SeqCase.wait_cases : t.wait = s.wait ∨ s.ph = .aw3 ∧ t.wait = true := by
  cases h <;> simp_all

theorem SeqCase.gie_cases : t.gie = s.gie ∨ s.ph = .aw3 ∧ t.gie = true ∨ s.ph = .aw1 ∧ t.gie = false := by
  cases h <;> simp_all

theorem SeqCase.ie_cases (k : Event) :
    t.ie k = s.ie k ∨ s.ph = .aw2 ∧ s.evk = k ∧ t.ie k = true ∨ s.ph = .aw5 ∧ s.evk = k ∧ t.ie k = false := by
  cases hp : s.ph.inWait with
  | false =>
    obtain ⟨htxe, hrxf, -, -⟩ := h.sync_eq hp
    cases k
    · exact .inl htxe
    · exact .inl hrxf
  | true =>
    cases h
    case aw2 hw hp => by_cases hk : k = s.evk <;> simp [hp, hk]
    case aw5 hw hp => by_cases hk : k = s.evk <;> simp [hp, hk]
    all_goals simp_all [Phase.inWait]

end

/-- No host's turn changes a flag: it issues or presents, in phase IDLE. -/
theorem hostStep_flags {s t : State} (h : hostStep s = .next t) :
    t.ifgTxe = s.ifgTxe ∧ t.ifgRxf = s.ifgRxf ∧ t.busy = s.busy ∧ t.txfull = s.txfull ∧ t.wait = s.wait ∧ t.gie = s.gie ∧
      ∀ k, t.ie k = s.ie k := by
  obtain ⟨-, w, i, -, -, rfl⟩ | ⟨-, -, m, rfl⟩ | rfl := hostStep_cases h
  · have hie : ∀ k, (issue i { s with port := none }).ie k = s.ie k := fun k => by cases k <;> simp [State.ie]
    simp [hie]
  · have hie : ∀ k, (s.present (encode m.command) m.bytes).ie k = s.ie k := fun k => by cases k <;> simp [State.ie]
    simp [hie]
  · simp

/-- With delivery on a signaled source is delivered (60_exceptions.md R133). -/
theorem State.deliverable_of_signaled {s : State} {k : Event} (hg : s.gie = true) (hk : s.signaled k = true) :
    s.deliverable = true := by
  cases k <;> cases hr : s.signaled .rxf <;> simp_all [State.deliverable, State.irqRequest, State.iv]

/-- Settles O53: the host changes no flag, LOAD and COMPLETE raise theirs, the handler clears the one it takes, and the
sequencer's phases write the rest. -/
theorem flagsChangeOnlyAsListed : Obligations.FlagsChangeOnlyAsListed := by
  intro s t h
  obtain ⟨hturn, h⟩ | ⟨hturn, h⟩ | ⟨hturn, h⟩ | ⟨hturn, h⟩ := agentStep_cases h
  · obtain ⟨h1, h2, h3, h4, h5, h6, h7⟩ := hostStep_flags h
    have hie : ∀ k, t.ie k = s.ie k := h7
    simp_all
  · have hbusy : t.busy = s.busy := h.busy_eq
    have hifg : t.ifgTxe = s.ifgTxe ∧ t.ifgRxf = s.ifgRxf ∨ s.ph = .cfInit ∧ t.ifgTxe = false ∧ t.ifgRxf = false :=
      h.ifg_cases
    have hfull : t.txfull = s.txfull ∨ (s.ph = .sbLoop ∨ s.ph = .rrAddr ∨ s.ph = .rrLoop) ∧ t.txfull = true :=
      h.txfull_cases
    have hwait : t.wait = s.wait ∨ s.ph = .aw3 ∧ t.wait = true := h.wait_cases
    have hgie : t.gie = s.gie ∨ s.ph = .aw3 ∧ t.gie = true ∨ s.ph = .aw1 ∧ t.gie = false := h.gie_cases
    have hie : ∀ k, t.ie k = s.ie k ∨ s.ph = .aw2 ∧ s.evk = k ∧ t.ie k = true ∨
      s.ph = .aw5 ∧ s.evk = k ∧ t.ie k = false := h.ie_cases
    refine ⟨?_, ?_, ?_, ?_, ?_, ?_, ?_, ?_, ?_, ?_, ?_, ?_, fun k => ?_, fun k => ?_⟩
    iterate 12 grind
    all_goals have := hie k; grind
  · have hie : ∀ k, t.ie k = s.ie k := by
      obtain ⟨-, rfl⟩ | ⟨-, -, rfl⟩ | ⟨-, -, rfl⟩ := shfStep_cases h <;> intro k <;> cases k <;> rfl
    obtain ⟨hl : s.canLoad = true, rfl⟩ | ⟨-, hc : s.canComplete = true, rfl⟩ | ⟨-, -, rfl⟩ := shfStep_cases h
    · simp_all [State.canLoad]
    · simp_all
    · simp_all
  · have hie : ∀ k, t.ie k = s.ie k := by
      obtain ⟨-, -, rfl⟩ | ⟨-, -, -, rfl⟩ | ⟨-, rfl⟩ := irqStep_cases h <;> intro k <;> cases k <;> rfl
    obtain ⟨hg : s.gie = true, hr : s.signaled .rxf = true, rfl⟩ |
      ⟨hg : s.gie = true, -, hx : s.signaled .txe = true, rfl⟩ | ⟨-, rfl⟩ := irqStep_cases h
    · have := State.deliverable_of_signaled hg hr
      simp_all
    · have := State.deliverable_of_signaled hg hx
      simp_all
    · simp_all

/-- Settles O54: MSBF has no writer, EN is only set, TXLOG and WIRE are only appended to. -/
theorem observablesOnlyGrow : Obligations.ObservablesOnlyGrow := by
  intro s t h
  obtain ⟨hturn, h⟩ | ⟨hturn, h⟩ | ⟨hturn, h⟩ | ⟨hturn, h⟩ := agentStep_cases h
  · obtain ⟨-, w, i, -, -, rfl⟩ | ⟨-, -, m, rfl⟩ | rfl := hostStep_cases h <;> simp
  · have hwire : t.wire = s.wire := h.wire_eq
    refine ⟨h.msbf_eq, h.en_of_en, ?_, by rw [hwire], fun hne => absurd hwire hne⟩
    obtain hlog | ⟨v, hlog⟩ := h.txlog_cases <;> simp [hlog]
  · obtain ⟨-, rfl⟩ | ⟨-, hc : s.canComplete = true, rfl⟩ | ⟨-, -, rfl⟩ := shfStep_cases h
    · simp
    · simp [hturn, hc]
    · simp
  · obtain ⟨-, -, rfl⟩ | ⟨-, -, -, rfl⟩ | ⟨-, rfl⟩ := irqStep_cases h <;> simp

/-- Settles O51: COMPLETE appends the byte it puts in RXBUF, and nothing else writes either. -/
theorem receiveRegisterHoldsLastByte : Obligations.ReceiveRegisterHoldsLastByte := by
  refine ⟨fun s t hs h => ?_, fun s h => by simp [State.RxInv, h.wire]⟩
  obtain ⟨-, h⟩ | ⟨-, h⟩ | ⟨-, h⟩ | ⟨-, h⟩ := agentStep_cases h
  · obtain ⟨-, w, i, -, -, rfl⟩ | ⟨-, -, m, rfl⟩ | rfl := hostStep_cases h
    · simpa [State.RxInv] using hs
    · exact hs
    · exact hs
  · intro x hx
    rw [h.wire_eq] at hx
    exact h.rxbuf_eq.trans (hs x hx)
  · obtain ⟨-, rfl⟩ | ⟨-, -, rfl⟩ | ⟨-, -, rfl⟩ := shfStep_cases h
    · exact hs
    · simp [State.RxInv]
    · exact hs
  · obtain ⟨-, -, rfl⟩ | ⟨-, -, -, rfl⟩ | ⟨-, rfl⟩ := irqStep_cases h <;> exact hs

end Sys2Proof.Machine
end

section
/-! PROOFS. The Transfer Buffer (20_memory.md R40 to R43, R47, R54): who writes it, where, and that it keeps its canonical
form; and the frame of every operation. -/

namespace Sys2Proof.Machine

/-- A write outside an index is not seen there. -/
theorem SeqCase.read_buf_of_ne {s t : State} (h : SeqCase s t) {a : Nat} (ha : a ≠ s.idx.toNat) :
    Memory.read t.buf a = Memory.read s.buf a := by
  obtain hbuf | ⟨-, -, -, hbuf⟩ := h.buf_cases
  · rw [hbuf]
  · rw [hbuf, Memory.read_write_of_ne _ _ ha]

/-- Settles O57: of the agents other than the host only the sequencer writes the buffer, in a store phase. -/
theorem bufferWrittenOnlyAtLoopPosition : Obligations.BufferWrittenOnlyAtLoopPosition := by
  intro s t h
  obtain ⟨hturn, h⟩ | ⟨hturn, h⟩ | ⟨hturn, h⟩ | ⟨hturn, h⟩ := agentStep_cases h
  · refine ⟨fun hne => absurd hturn hne, fun hne => absurd hturn hne, fun _ hp => ?_⟩
    obtain ⟨hidle, -⟩ | ⟨hidle, -⟩ | rfl := hostStep_cases h
    · exact absurd hidle hp
    · exact absurd hidle hp
    · exact ⟨rfl, rfl⟩
  · refine ⟨fun _ => ⟨h.bufcap_eq, fun a ha => h.read_buf_of_ne ha⟩, fun _ hne => ?_, fun hhost => ?_⟩
    · obtain hbuf | ⟨hw, hcap, hph, hbuf⟩ := h.buf_cases
      · exact absurd hbuf hne
      · exact ⟨hturn, hw, hcap, hph, fun hwf => by rw [hbuf]; exact Memory.read_write_self hwf _ _⟩
    · rw [hturn] at hhost
      cases hhost
  · obtain ⟨-, rfl⟩ | ⟨-, -, rfl⟩ | ⟨-, -, rfl⟩ := shfStep_cases h <;> simp
  · obtain ⟨-, -, rfl⟩ | ⟨-, -, -, rfl⟩ | ⟨-, rfl⟩ := irqStep_cases h <;> simp

/-- Settles O59: the buffer is written by the store phases, byte by byte, and by the host, whole. -/
theorem bufferKeepsCanonicalForm : Obligations.BufferKeepsCanonicalForm := by
  refine ⟨fun s t hs h => ?_, rfl⟩
  obtain ⟨-, h⟩ | ⟨-, h⟩ | ⟨-, h⟩ | ⟨-, h⟩ := agentStep_cases h
  · obtain ⟨-, w, i, -, -, rfl⟩ | ⟨-, -, m, rfl⟩ | rfl := hostStep_cases h
    · simpa using hs
    · exact Memory.ofBytes_wf m.bytes
    · exact hs
  · obtain hbuf | ⟨-, -, -, hbuf⟩ := h.buf_cases <;> rw [hbuf]
    · exact hs
    · exact Memory.write_wf hs _ _
  · obtain ⟨-, rfl⟩ | ⟨-, -, rfl⟩ | ⟨-, -, rfl⟩ := shfStep_cases h <;> exact hs
  · obtain ⟨-, -, rfl⟩ | ⟨-, -, -, rfl⟩ | ⟨-, rfl⟩ := irqStep_cases h <;> exact hs

/-- RES is untouched outside the store phases of the byte forms. -/
theorem SeqCase.keeps_res {s t : State} (h : SeqCase s t) (h1 : s.ph ≠ .rbStore ∨ s.opc ≠ 5)
    (h2 : s.ph ≠ .rrStore ∨ s.opc ≠ 7) : t.res = s.res := by
  obtain hres | ⟨⟨hp, ho⟩ | ⟨hp, ho⟩, -⟩ := h.res_cases
  · exact hres
  · exact absurd h1 (by simp [hp, ho])
  · exact absurd h2 (by simp [hp, ho])

/-- The buffer is untouched outside the store phases of the buffer forms. -/
theorem SeqCase.keeps_buf {s t : State} (h : SeqCase s t) (h1 : s.ph ≠ .rbStore ∨ s.opc = 5)
    (h2 : s.ph ≠ .rrStore ∨ s.opc = 7) : t.buf = s.buf := by
  obtain hbuf | ⟨-, -, ⟨hp, ho⟩ | ⟨hp, ho⟩, -⟩ := h.buf_cases
  · exact hbuf
  · exact h1.elim (absurd hp) (absurd · ho)
  · exact h2.elim (absurd hp) (absurd · ho)

/-- IDX is untouched outside the three phases that advance it. -/
theorem SeqCase.keeps_idx {s t : State} (h : SeqCase s t) (h1 : s.ph ≠ .sbNext) (h2 : s.ph ≠ .rbStore)
    (h3 : s.ph ≠ .rrDly2) : t.idx = s.idx := by
  obtain hidx | ⟨hp, -⟩ := h.idx_cases
  · exact hidx
  · simp [h1, h2, h3] at hp

/-- Settles O56: the issue step touches the operand latches, IDX and PH only; an operation in progress takes the
sequencer's step; another operation's command changes nothing. -/
theorem operationsKeepTheirFrame : Obligations.OperationsKeepTheirFrame := by
  intro i s t h
  rw [exec_eq_operate] at h
  obtain ⟨hp, rfl⟩ | ⟨hp, -, h⟩ | ⟨-, -, rfl⟩ := operate_cases h
  · simp [hp]
  · refine ⟨h.shreg_eq, h.rxbuf_eq, h.busy_eq, h.wire_eq, h.msbf_eq, h.bufcap_eq, h.port_eq, h.turn_eq, h.tick_eq,
      fun hcf => ?_, h.sync_eq, h.tx_eq, fun h1 h2 a => by rw [h.keeps_buf h1 h2], h.keeps_res,
      fun _ => ⟨h.opc_eq, h.cnt_eq, h.adr_eq, h.held_eq⟩, fun _ => h.keeps_idx, h.dly_eq, h.call_eq,
      fun a ha => h.read_buf_of_ne ha⟩
    obtain ⟨h1, h2, h3, h4, h5, h6, h7⟩ := h.settings_eq hcf
    exact ⟨h1, h2, h3, h4, h5, h6, h7, h.flags_eq hcf⟩
  · simp

end Sys2Proof.Machine
end

section
/-! PROOFS. The steps of the operations one by one (30_encoding.md R59, 40_configuration.md R74, 42_sync_primitive.md R91 to
R95, 43_transfer_send.md, 44_transfer_receive.md, 45_register_read.md): the sequencer's step of each phase, and the
operation in progress that takes it. -/

namespace Sys2Proof.Machine

/-! The sequencer's step of each phase that has no branch of its own. -/

section
variable {s : State} (hw : s.wait = false)
include hw

theorem seqStep_of_aw1 (hp : s.ph = .aw1) : seqStep s = .next s.aw1 := by simp [seqStep, hp, hw]
theorem seqStep_of_aw2 (hp : s.ph = .aw2) : seqStep s = .next s.aw2 := by simp [seqStep, hp, hw]
theorem seqStep_of_aw3 (hp : s.ph = .aw3) : seqStep s = .next s.aw3 := by simp [seqStep, hp, hw]
theorem seqStep_of_aw5 (hp : s.ph = .aw5) : seqStep s = .next s.aw5 := by simp [seqStep, hp, hw]
theorem seqStep_of_sbNext (hp : s.ph = .sbNext) : seqStep s = .next s.sbNext := by simp [seqStep, hp, hw]
theorem seqStep_of_sbPoll (hp : s.ph = .sbPoll) : seqStep s = .next s.sbPoll := by simp [seqStep, hp, hw]
theorem seqStep_of_rbStore (hp : s.ph = .rbStore) : seqStep s = rbStore s := by simp [seqStep, hp, hw]
theorem seqStep_of_rrAddr (hp : s.ph = .rrAddr) : seqStep s = .next s.rrAddr := by simp [seqStep, hp, hw]
theorem seqStep_of_rrDisc (hp : s.ph = .rrDisc) : seqStep s = .next s.rrDisc := by simp [seqStep, hp, hw]
theorem seqStep_of_rrSet1 (hp : s.ph = .rrSet1) : seqStep s = .next (s.rrSet1 Config.settleCycles) := by
  simp [seqStep, hp, hw]
theorem seqStep_of_rrDly1 (hp : s.ph = .rrDly1) : seqStep s = .next s.rrDly1 := by simp [seqStep, hp, hw]
theorem seqStep_of_rrSet2 (hp : s.ph = .rrSet2) : seqStep s = .next (s.rrSet2 Config.settleCycles) := by
  simp [seqStep, hp, hw]
theorem seqStep_of_rrDly2 (hp : s.ph = .rrDly2) : seqStep s = .next s.rrDly2 := by simp [seqStep, hp, hw]

end

/-- An operation in progress in phase `p` takes the sequencer's step. -/
theorem exec_of_ph {s : State} (i : Instr) {p : Phase} (hp : s.ph = p) (hne : p ≠ .idle) (hop : s.opc = i.opcode) :
    exec i s = seqStep s :=
  exec_of_running (hp ▸ hne) hop

/-! The settling delays (R123, R126): counting down, and done. -/

theorem State.rrDly1_of_ne {s : State} (hd : s.dly ≠ 0) : s.rrDly1 = { s with dly := s.dly - 1 } := if_pos hd
theorem State.rrDly1_of_eq {s : State} (hd : s.dly = 0) : s.rrDly1 = { s with ph := .rrLoop } := if_neg (by simp [hd])
theorem State.rrDly2_of_ne {s : State} (hd : s.dly ≠ 0) : s.rrDly2 = { s with dly := s.dly - 1 } := if_pos hd
theorem State.rrDly2_of_eq {s : State} (hd : s.dly = 0) : s.rrDly2 = { s.nextIdx with ph := .rrLoop } :=
  if_neg (by simp [hd])

/-! The poll (R103). -/

theorem State.sbPoll_of_busy {s : State} (hp : s.ph = .sbPoll) (hb : s.busy = true) : s.sbPoll = s := by
  rw [State.sbPoll, if_pos hb, ← hp]

theorem State.sbPoll_of_not_busy {s : State} (hb : s.busy = false) : s.sbPoll = { s with ph := .idle } := by
  rw [State.sbPoll, if_neg (by simp [hb])]

/-! ## Issue -/

/-- Settles O6: in phase IDLE every operation takes its issue step. -/
theorem issueLatchesOperands : Obligations.IssueLatchesOperands := fun _ hp =>
  ⟨fun _ _ _ _ => exec_of_idle _ hp, fun _ => exec_of_idle _ hp, fun _ => exec_of_idle _ hp,
    fun _ => exec_of_idle _ hp, exec_of_idle _ hp, fun _ _ => exec_of_idle _ hp, fun _ => exec_of_idle _ hp⟩

/-- A word the decoder reads is issued, and the port is empty then (log 9). -/
theorem issueWord_of_ok {w : Word} {i : Instr} (s : State) (h : decode w = .ok i) :
    issueWord w s = exec i { s with port := none } := by
  simp [issueWord, h]

/-- Settles O7: the host's turn issues the word on the port; the sequencer's turn is the step of the operation in
progress. -/
theorem stepRunsDecodedInstruction : Obligations.StepRunsDecodedInstruction := by
  refine ⟨fun s w i hturn hp hport hdec _ => ?_, fun s i hturn hp hop => ?_⟩
  · calc step s = hostStep s.advance := by rw [step, hturn, agentStep]
      _ = issueWord w s.advance := hostStep_of_idle hp hport
      _ = exec i { s.advance with port := none } := issueWord_of_ok _ hdec
  · calc step s = seqStep s.advance := by rw [step, hturn, agentStep]
      _ = exec i s.advance := (exec_of_running (s := s.advance) hp hop).symm

/-- While an operation runs the host has no move (20_memory.md R52). -/
theorem hostStep_of_running {s : State} (hp : s.ph ≠ .idle) : hostStep s = .next s := by
  have hr : s.ready = false := by simp [State.ready, hp]
  simp [hostStep, hr]

/-- Settles O8: the block is not ready for the host, and a command with another opcode is not accepted. -/
theorem runningOperationBlocksHost : Obligations.RunningOperationBlocksHost := by
  refine fun s hp => ⟨fun hturn => ?_, fun i hop => exec_of_other hp hop⟩
  rw [step, hturn, agentStep, hostStep_of_running (s := s.advance) hp]

/-! ## INIT -/

/-- An INIT issued in phase IDLE and run to its end. -/
theorem exec_init_twice {s s1 : State} {clksel : ClkSel} {rate : Rate} {ckph ckpl : Bool} (hp : s.ph = .idle)
    (hw : s.wait = false) (h : exec (.init clksel rate ckph ckpl) s = .next s1) :
    exec (.init clksel rate ckph ckpl) s1 = .next ((issueInit clksel rate ckph ckpl s).configure Config.clock) := by
  rw [exec_of_idle _ hp] at h
  cases h
  exact exec_init_of_cfInit clksel rate ckph ckpl rfl hw rfl

/-- Settles O10: what CF_INIT writes depends on the operands and the open constants alone, so the second INIT writes
what stands there. -/
theorem initIsIdempotent : Obligations.InitIsIdempotent := by
  intro s s1 s2 s3 s4 clksel rate ckph ckpl hp hw h1 h2 h3 h4
  rw [exec_init_twice hp hw h1] at h2
  cases h2
  rw [exec_init_twice (s := (issueInit clksel rate ckph ckpl s).configure Config.clock) rfl hw h3] at h4
  cases h4
  rfl

/-- Settles O11: CF_INIT enables the controller and clears the flags; a quiet state stays quiet. -/
theorem initEndsClean : Obligations.InitEndsClean := fun _ _ _ _ _ hs =>
  ⟨_, _, exec_of_idle _ hs.ph, exec_init_twice hs.ph hs.wait (exec_of_idle _ hs.ph),
    ⟨⟨⟨rfl, hs.wait, hs.ieTxe, hs.ieRxf, hs.txfull, hs.busy⟩, rfl, rfl⟩, rfl⟩⟩

/-! ## The shifter and the handler -/

/-- Settles O15: neither guard holds. -/
theorem shifterIdlesWithoutWork : Obligations.ShifterIdlesWithoutWork := by
  intro s hturn h
  rw [step_of_shf_turn hturn]
  obtain hen | ⟨hfull, hbusy⟩ := h
  · simp [shfStep, State.canLoad, State.canComplete, hen]
  · simp [shfStep, State.canLoad, State.canComplete, hfull, hbusy]

/-- At the handler's turn the machine's step is the handler's. -/
theorem step_of_irq_turn {s : State} (hturn : s.turn = .irq) : step s = irqStep s.advance := by
  rw [step, hturn, agentStep]

/-- With delivery on the handler takes its case. -/
theorem irqStep_of_gie {s : State} (hg : s.gie = true) : irqStep s = .next s.takeInterrupt := by
  rw [irqStep, if_pos hg]

theorem irqStep_of_masked {s : State} (hg : s.gie = false) : irqStep s = .next s := by
  rw [irqStep, if_neg (by simp [hg])]

theorem State.takeInterrupt_of_rxf {s : State} (h : s.signaled .rxf = true) :
    s.takeInterrupt = { s with ifgRxf := false, wait := false } := by
  simp [State.takeInterrupt, State.iv, h]

theorem State.takeInterrupt_of_txe {s : State} (hr : s.signaled .rxf = false) (h : s.signaled .txe = true) :
    s.takeInterrupt = { s with ifgTxe := false, wait := false } := by
  simp [State.takeInterrupt, State.iv, hr, h]

theorem State.takeInterrupt_of_none {s : State} (hr : s.signaled .rxf = false) (h : s.signaled .txe = false) :
    s.takeInterrupt = s := by
  simp [State.takeInterrupt, State.iv, hr, h]

theorem State.signaled_rxf_eq_false {s : State} (h : s.ifgRxf = false ∨ s.ieRxf = false) : s.signaled .rxf = false := by
  obtain h | h := h <;> simp [State.signaled, State.ifg, State.ie, h]

theorem State.signaled_txe_eq_false {s : State} (h : s.ifgTxe = false ∨ s.ieTxe = false) : s.signaled .txe = false := by
  obtain h | h := h <;> simp [State.signaled, State.ifg, State.ie, h]

/-- Settles O19: with delivery on, the first signaled source in the order of precedence decides the case. -/
theorem handlerTakesItsCase : Obligations.HandlerTakesItsCase := by
  intro s hturn
  rw [step_of_irq_turn hturn]
  refine ⟨fun hg hifg hie => ?_, fun hg hr hifg hie => ?_, fun hg hr hx => ?_, fun hg => irqStep_of_masked hg⟩
  · rw [irqStep_of_gie (s := s.advance) hg, State.takeInterrupt_of_rxf]
    exact Bool.and_eq_true_iff.mpr ⟨hifg, hie⟩
  · rw [irqStep_of_gie (s := s.advance) hg, State.takeInterrupt_of_txe (s := s.advance) (State.signaled_rxf_eq_false hr)]
    exact Bool.and_eq_true_iff.mpr ⟨hifg, hie⟩
  · rw [irqStep_of_gie (s := s.advance) hg,
      State.takeInterrupt_of_none (s := s.advance) (State.signaled_rxf_eq_false hr) (State.signaled_txe_eq_false hx)]

/-! ## `armAndWait` -/

theorem State.aw2_of_evk {s : State} {k : Event} (hk : s.evk = k) :
    s.aw2 = { s.setIe k true with ph := .aw3 } := by subst hk; rfl

theorem State.aw5_of_evk {s : State} {k : Event} (hk : s.evk = k) :
    s.aw5 = { s.setIe k false with ph := s.ret } := by subst hk; rfl

/-- Settles O17: phase by phase, the operation in progress takes the step of `armAndWait`; what holds around the steps
is the arming invariant in that phase. -/
theorem armAndWaitSteps : Obligations.ArmAndWaitSteps := by
  intro s i hop hw
  have hexec : ∀ {p : Phase}, s.ph = p → p ≠ .idle → exec i s = seqStep s := fun hp hne => exec_of_ph i hp hne hop
  have h3 (hp : s.ph = .aw3) : exec i s = .next s.aw3 := (hexec hp (by decide)).trans (seqStep_of_aw3 hw hp)
  have h5 (hp : s.ph = .aw5) : exec i s = .next s.aw5 := (hexec hp (by decide)).trans (seqStep_of_aw5 hw hp)
  refine ⟨fun hp => ?_, fun hp hk => ?_, fun hp hk => ?_, fun hp ha => ?_, fun hp => h3 hp, fun hp => ?_,
    fun hp hk => ?_, fun hp hk => ?_, fun hp ha => ?_⟩
  · exact (hexec hp (by decide)).trans (seqStep_of_aw1 hw hp)
  · rw [hexec hp (by decide), seqStep_of_aw2 hw hp, State.aw2_of_evk hk]; rfl
  · rw [hexec hp (by decide), seqStep_of_aw2 hw hp, State.aw2_of_evk hk]; rfl
  · have hie : ∀ k, s.ie k = false := fun k => by simpa [hp] using ha.armed k
    exact ⟨hie .txe, hie .rxf, by simp [State.deliverable, ha.masked (.inl hp)]⟩
  · refine ⟨s.aw3, h3 hp, ?_, fun ha hifg => ?_⟩
    · exact (exec_of_running (s := s.aw3) (by simp) hop).trans (seqStep_of_wait (s := s.aw3) rfl)
    · have harmed : s.ie s.evk = true := (ha.armed s.evk).mpr ⟨rfl, .inl hp⟩
      exact State.deliverable_of_signaled (k := s.evk) rfl (Bool.and_eq_true_iff.mpr ⟨hifg, harmed⟩)
  · rw [h5 hp, State.aw5_of_evk hk]; rfl
  · rw [h5 hp, State.aw5_of_evk hk]; rfl
  · have hret := Phase.inWait_eq_false_of_continues (ha.returns (by simp [hp, Phase.inWait]))
    have hnext : s.aw5.ArmInv := (SeqCase.aw5 hw hp).keeps_armInv ha
    obtain ⟨htxe, hrxf, -⟩ := (State.armInv_iff_of_outside (by simpa using hret)).mp hnext
    exact ⟨s.aw5, h5 hp, htxe, hrxf, by simpa using ha.delivering hp, rfl⟩

/-! ## Send, receive, register read -/

/-- A send operation in progress in phase SB_POLL polls (R103). -/
theorem exec_of_sbPoll {s : State} {i : Instr} (hp : s.ph = .sbPoll) (hw : s.wait = false) (hop : s.opc = i.opcode) :
    exec i s = .next s.sbPoll :=
  (exec_of_ph i hp (by decide) hop).trans (seqStep_of_sbPoll hw hp)

/-- Settles O26: the steps of SB_NEXT and SB_POLL, taken by both send operations. -/
theorem sendAdvancesAndPolls : Obligations.SendAdvancesAndPolls := by
  intro s i hi hw
  have hop : s.opc = i.opcode := by
    obtain ⟨hop, count, rfl⟩ | ⟨hop, byte, rfl⟩ := hi
    · exact hop
    · exact hop
  refine ⟨fun hp => ?_, fun hp hb => ?_, fun hp hb => ?_⟩
  · exact (exec_of_ph i hp (by decide) hop).trans (seqStep_of_sbNext hw hp)
  · rw [exec_of_sbPoll hp hw hop, State.sbPoll_of_busy hp hb]
  · rw [exec_of_sbPoll hp hw hop, State.sbPoll_of_not_busy hb]

/-- SENDBUF of no byte leaves the loop at once. -/
theorem exec_sendbuf_zero {s : State} (hw : s.wait = false) :
    exec (.sendbuf 0) (issueSendbuf 0 s) = .next { issueSendbuf 0 s with ph := .sbPoll } :=
  (exec_of_sbLoop (s := issueSendbuf 0 s) _ rfl hw rfl).trans (sbLoop_of_le (s := issueSendbuf 0 s) (BitVec.le_refl _))

/-- RECVBUF of no byte returns at once. -/
theorem exec_recvbuf_zero {s : State} (hw : s.wait = false) :
    exec (.recvbuf 0) (issueRecvbuf 0 s) = .next { issueRecvbuf 0 s with ph := .idle } := by
  rw [exec_of_rbLoop (s := issueRecvbuf 0 s) rfl hw rfl, State.rbLoop_of_le (BitVec.le_refl _)]

/-- Settles O27: with count 0 the loop head leaves the loop at once, and the poll waits for BUSY alone. -/
theorem lengthZeroReturnsAtOnce : Obligations.LengthZeroReturnsAtOnce := by
  intro s hp hw
  have hpoll := exec_of_sbPoll (s := { issueSendbuf 0 s with ph := .sbPoll }) (i := .sendbuf 0) rfl hw rfl
  refine ⟨⟨_, _, exec_of_idle _ hp, exec_sendbuf_zero hw, fun hb => hpoll.trans ?_, fun hb => hpoll.trans ?_⟩,
    _, exec_of_idle _ hp, exec_recvbuf_zero hw⟩
  · exact congrArg Host.Outcome.next (State.sbPoll_of_busy rfl hb)
  · exact congrArg Host.Outcome.next (State.sbPoll_of_not_busy hb)

/-- Once RXBUF is stored, the store step advances (R112). -/
theorem rbStore_of_stored {s t : State} (h : s.storeReceived 5 s.rxbuf = .ok t) :
    rbStore s = .next { t.nextIdx with ph := .rbLoop } := by
  rw [rbStore, State.rxRead, h]

/-- Settles O32: both forms take the store step, which puts RXBUF where the form says. -/
theorem receiveStoresAtLoopPosition : Obligations.ReceiveStoresAtLoopPosition := by
  intro s hp hw
  refine ⟨fun hop => ?_, fun count hop hcap => ?_⟩
  · rw [exec_of_ph .recvbyte hp (by decide) hop, seqStep_of_rbStore hw hp,
      rbStore_of_stored (State.storeReceived_of_byteForm s.rxbuf hop), State.nextIdx]
  · rw [exec_of_ph (.recvbuf count) hp (by decide) hop, seqStep_of_rbStore hw hp,
      rbStore_of_stored (State.storeReceived_of_bufferForm s.rxbuf (by simp [hop]) hcap), State.nextIdx]

/-- A register read in progress has its own opcode. -/
theorem opcode_of_registerRead {s : State} {i : Instr} (hi : (s.opc = 6 ∧ ∃ regaddr count, i = .sarecv regaddr count) ∨
    (s.opc = 7 ∧ ∃ regaddr, i = .sarecvb regaddr)) : s.opc = i.opcode := by
  obtain ⟨hop, regaddr, count, rfl⟩ | ⟨hop, regaddr, rfl⟩ := hi
  · exact hop
  · exact hop

/-- Settles O35: the steps of RR_ADDR and RR_DISC, taken by both register reads. -/
theorem registerReadSendsAddressAndDiscards : Obligations.RegisterReadSendsAddressAndDiscards := by
  intro s i hi hw
  have hop := opcode_of_registerRead hi
  exact ⟨fun hp => (exec_of_ph i hp (by decide) hop).trans (seqStep_of_rrAddr hw hp),
    fun hp => (exec_of_ph i hp (by decide) hop).trans (seqStep_of_rrDisc hw hp)⟩

/-- Settles O36: the steps of the two settling delays, taken by both register reads. -/
theorem registerReadHoldsSettlingDelay : Obligations.RegisterReadHoldsSettlingDelay := by
  intro s i hi hw
  have hop := opcode_of_registerRead hi
  refine ⟨fun hp => ?_, fun hp hd => ?_, fun hp hd => ?_, fun hp => ?_, fun hp hd => ?_, fun hp hd => ?_⟩
  · exact (exec_of_ph i hp (by decide) hop).trans (seqStep_of_rrSet1 hw hp)
  · rw [exec_of_ph i hp (by decide) hop, seqStep_of_rrDly1 hw hp, State.rrDly1_of_ne hd]
  · rw [exec_of_ph i hp (by decide) hop, seqStep_of_rrDly1 hw hp, State.rrDly1_of_eq hd]
  · exact (exec_of_ph i hp (by decide) hop).trans (seqStep_of_rrSet2 hw hp)
  · rw [exec_of_ph i hp (by decide) hop, seqStep_of_rrDly2 hw hp, State.rrDly2_of_ne hd]
  · rw [exec_of_ph i hp (by decide) hop, seqStep_of_rrDly2 hw hp, State.rrDly2_of_eq hd, State.nextIdx]

/-- Settles O37: RR_SET1 loads the counter, and the countdown is `runAgents_rrDly1`. -/
theorem settlingDelayTakesItsSteps : Obligations.SettlingDelayTakesItsSteps := by
  intro s hp hw
  have hset : act .seq s = .next (s.advance.rrSet1 Config.settleCycles) := seqStep_of_rrSet1 (s := s.advance) hw hp
  obtain ⟨turn, tick, hrun⟩ :=
    runAgents_rrDly1 Config.settleCycles (s.advance.rrSet1 Config.settleCycles) rfl hw rfl
  refine ⟨turn, tick, ?_⟩
  rw [List.replicate_succ]
  simp only [runAgents, hset]
  exact hrun

/-- Beyond the capacity a buffer access is a fault, wherever it stands (20_memory.md R43). -/
theorem State.sendOperand_of_over {s : State} (hop : s.opc ≠ 3) (hcap : s.bufcap ≤ s.idx.toNat) :
    s.sendOperand = .error (.bufferRead s.idx) := by
  obtain ⟨h3, -⟩ | ⟨-, hlt, -⟩ | ⟨-, -, he⟩ := s.sendOperand_cases
  · exact absurd h3 hop
  · omega
  · exact he

theorem State.storeReceived_of_over {op : Opcode} {s : State} (v : Byte) (hop : s.opc ≠ op)
    (hcap : s.bufcap ≤ s.idx.toNat) : s.storeReceived op v = .error (.bufferWrite s.idx) := by
  obtain ⟨h, -⟩ | ⟨-, hlt, -⟩ | ⟨-, -, he⟩ := s.storeReceived_cases op v
  · exact absurd h hop
  · omega
  · exact he

/-- Settles O58: the three phases that access the buffer, at an index the access answers with a fault. -/
theorem accessBeyondCapacityFaults : Obligations.AccessBeyondCapacityFaults := by
  intro s hw hcap
  refine ⟨fun count hp hop hlt => ?_, fun count hp hop => ?_, fun regaddr count hp hop => ?_⟩
  · rw [exec_of_sbLoop (.sendbuf count) hp hw hop, sbLoop, if_pos (s.more_iff.mpr hlt),
      State.sendOperand_of_over (by simp [hop]) hcap]
  · rw [exec_of_ph (.recvbuf count) hp (by decide) hop, seqStep_of_rbStore hw hp, rbStore,
      State.storeReceived_of_over _ (by simp [hop]) hcap]
  · rw [exec_of_ph (.sarecv regaddr count) hp (by decide) hop, seqStep_of_rrStore hp hw, rrStore,
      State.storeReceived_of_over _ (by simp [hop]) hcap]

end Sys2Proof.Machine
end

section
/-! PROOFS. The bit level of an exchange (41_bus_controller_shifter.md R83): eight clock periods shift a byte out and a
byte in, most significant bit first. -/

namespace Sys2Proof.Machine

@[simp] theorem Serial.exchange_nil (r : Byte) : Serial.exchange r [] = ([], r) := rfl

@[simp] theorem Serial.exchange_cons (r : Byte) (x : Bool) (xs : List Bool) :
    Serial.exchange r (x :: xs) =
      (r.getLsbD 7 :: (Serial.exchange (Serial.clockPeriod r x).2 xs).1, (Serial.exchange (Serial.clockPeriod r x).2 xs).2) :=
  rfl

/-- Eight clock periods put out the register's bits and leave the bits sampled. -/
theorem Serial.exchange_bits (out m : Byte) : Serial.exchange out (Serial.bits m) = (Serial.bits out, m) := by
  apply Prod.ext
  · simp [Serial.bits]
  · apply BitVec.eq_of_getLsbD_eq
    intro i hi
    interval_cases i <;> simp [Serial.bits]

/-- Settles O16: the bits on data-in are those of the byte COMPLETE draws. -/
theorem bitLevelMatchesByteLevel : Obligations.BitLevelMatchesByteLevel := by
  refine ⟨fun s hen hbusy => ?_, fun out m => ⟨Serial.exchange_bits out m, rfl, Serial.bits_get m⟩⟩
  refine ⟨_, Serial.bits (Config.slave s.advance.tick s.wire s.shreg), shfStep_of_busy (s := s.advance) hen hbusy, rfl,
    Serial.bits_get _, ?_⟩
  rw [Serial.exchange_bits]
  exact ⟨Serial.bits_get _, rfl, rfl, rfl⟩

end Sys2Proof.Machine
end

section
/-! PROOFS. The wait (42_sync_primitive.md R96 to R99): what ends it, that a pending flag of the awaited source does, and
that a hang is for ever. -/

namespace Sys2Proof.Machine

/-- While an operation runs every agent has a next state if the sequencer has one: only it accesses the buffer. -/
theorem exists_agentStep_next {s : State} (hp : s.ph ≠ .idle) (hseq : ∃ t, seqStep s = .next t) (a : Agent) :
    ∃ t, agentStep a s = .next t := by
  cases a with
  | host => exact ⟨s, hostStep_of_running hp⟩
  | seq => exact hseq
  | shf =>
    unfold agentStep shfStep
    split_ifs <;> exact ⟨_, rfl⟩
  | irq =>
    unfold agentStep irqStep
    split_ifs <;> exact ⟨_, rfl⟩

/-- As `eventually_of_rank`, for a run that does not stop before the goal. -/
theorem eventually_of_rank_of_next {α : Type} {r : α → α → Prop} (hr : WellFounded r) (P goal : State → Prop)
    (rank : State → α) (helpful : State → Agent)
    (hnext : ∀ a s, P s → ¬goal s → ∃ t, act a s = .next t)
    (henabled : ∀ s, P s → ¬goal s → helpful s ≠ .host ∧ s.enabled (helpful s) = true)
    (hstep : ∀ a s t, P s → ¬goal s → act a s = .next t →
      goal t ∨ P t ∧ (r (rank t) (rank s) ∨ rank t = rank s ∧ helpful t = helpful s ∧ a ≠ helpful s))
    {order : Nat → Agent} {s : State} (hf : WeaklyFair order s) (hs : P s) : Eventually order goal s := by
  obtain h | ⟨n, hn⟩ := eventually_of_rank hr P goal rank helpful henabled hstep hf hs
  · exact h
  by_contra hne
  have hruns : ∀ n, ∃ t, runFor n order s = .next t ∧ P t := by
    intro n
    induction n with
    | zero => exact ⟨s, rfl, hs⟩
    | succ n ih =>
      obtain ⟨t, ht, hPt⟩ := ih
      have hgoal : ¬goal t := fun hg => hne ⟨n, t, ht, hg⟩
      obtain ⟨u, hu⟩ := hnext (order n) t hPt hgoal
      have hrun : runFor (n + 1) order s = .next u := (runFor_succ ht).trans hu
      obtain hg | ⟨hPu, -⟩ := hstep _ t u hPt hgoal hu
      · exact absurd ⟨n + 1, u, hrun, hg⟩ hne
      · exact ⟨u, hrun, hPu⟩
  obtain ⟨t, ht, -⟩ := hruns n
  exact hn t ht

/-- The handler has no step exactly when delivery is off or no source is signaled (60_exceptions.md R133). -/
theorem State.deliverable_eq_false_iff {s : State} :
    s.deliverable = false ↔ s.gie = false ∨ s.signaled .rxf = false ∧ s.signaled .txe = false := by
  cases hr : s.signaled .rxf <;> cases hx : s.signaled .txe <;>
    simp [State.deliverable, State.irqRequest, State.iv, hr, hx]

/-! The shifter only raises flags. -/

theorem State.load_ifg {s : State} {k : Event} (h : s.ifg k = true) : s.load.ifg k = true := by
  cases k
  · rfl
  · exact h

theorem State.complete_ifg {s : State} {k : Event} (m : Byte) (h : s.ifg k = true) : (s.complete m).ifg k = true := by
  cases k
  · exact h
  · rfl

/-- The awaited source is pending in a wait that it will end: from AW3 on, before the release. -/
structure State.AwaitedPending (s : State) : Prop where
  ph : s.ph = .aw3 ∨ (s.ph = .aw5 ∧ s.wait = true)
  ifg : s.ifg s.evk = true

theorem State.AwaitedPending.running {s : State} (h : s.AwaitedPending) : s.ph ≠ .idle := by
  obtain hp | ⟨hp, -⟩ := h.ph <;> simp [hp]

/-- Once the wait is entered the handler is enabled. -/
theorem State.AwaitedPending.deliverable {s : State} (h : s.AwaitedPending) (ha : s.ArmInv) (hw : s.wait = true) :
    s.deliverable = true := by
  have hp := ha.waiting hw
  exact State.deliverable_of_signaled (ha.delivering hp)
    (Bool.and_eq_true_iff.mpr ⟨h.ifg, (ha.armed s.evk).mpr ⟨rfl, .inr hp⟩⟩)

/-- How far the wait is from its release: the step of AW3, then the handler's. -/
def State.wakeRank (s : State) : Nat := if s.ph = .aw3 then 1 else 0

/-- Who moves it on. -/
def State.waker (s : State) : Agent := if s.ph = .aw3 then .seq else .irq

theorem State.waker_ne_host (s : State) : s.waker ≠ .host := by unfold State.waker; split_ifs <;> decide
theorem State.waker_ne_shf (s : State) : s.waker ≠ .shf := by unfold State.waker; split_ifs <;> decide

/-- Every step keeps the flag pending and the wait going on, or is the handler's, which consumes the flag; the step of
the agent who moves the wait on does move it on. -/
theorem State.AwaitedPending.step {a : Agent} {s t : State} (hs : s.AwaitedPending) (ha : s.ArmInv)
    (h : agentStep a s = .next t) :
    (t.AwaitedPending ∧ t.evk = s.evk ∧ (t.ph = s.ph ∧ a ≠ s.waker ∨ s.ph = .aw3 ∧ t.ph = .aw5)) ∨
    (a = .irq ∧ s.wait = true ∧ t.wait = false ∧ t.ph = .aw5 ∧ t.evk = s.evk ∧ t.ifg s.evk = false) := by
  obtain ⟨rfl, h'⟩ | ⟨rfl, h'⟩ | ⟨rfl, h'⟩ | ⟨rfl, h'⟩ := agentStep_cases h
  · rw [hostStep_of_running hs.running] at h'
    cases h'
    exact .inl ⟨hs, rfl, .inl ⟨rfl, s.waker_ne_host.symm⟩⟩
  · obtain hp | ⟨hp, hw⟩ := hs.ph
    · have hw := ha.wait_eq_false (by simp [hp])
      rw [agentStep, seqStep_of_aw3 hw hp] at h
      cases h
      exact .inl ⟨⟨.inr ⟨rfl, rfl⟩, hs.ifg⟩, rfl, .inr ⟨hp, rfl⟩⟩
    · rw [agentStep, seqStep_of_wait hw] at h
      cases h
      exact .inl ⟨hs, rfl, .inl ⟨rfl, by simp [State.waker, hp]⟩⟩
  · have hne := s.waker_ne_shf.symm
    obtain ⟨-, rfl⟩ | ⟨-, -, rfl⟩ | ⟨-, -, rfl⟩ := shfStep_cases h'
    · exact .inl ⟨⟨hs.ph, State.load_ifg hs.ifg⟩, rfl, .inl ⟨rfl, hne⟩⟩
    · exact .inl ⟨⟨hs.ph, State.complete_ifg _ hs.ifg⟩, rfl, .inl ⟨rfl, hne⟩⟩
    · exact .inl ⟨hs, rfl, .inl ⟨rfl, hne⟩⟩
  · obtain ⟨hg, hr, rfl⟩ | ⟨hg, -, hx, rfl⟩ | ⟨hno, rfl⟩ := irqStep_cases h'
    · obtain ⟨he, hp, -⟩ := ha.of_delivered hg hr
      exact .inr ⟨rfl, by simpa [hp] using hs.ph, rfl, hp, rfl, by rw [← he]; rfl⟩
    · obtain ⟨he, hp, -⟩ := ha.of_delivered hg hx
      exact .inr ⟨rfl, by simpa [hp] using hs.ph, rfl, hp, rfl, by rw [← he]; rfl⟩
    · obtain hp | ⟨hp, hw⟩ := hs.ph
      · exact .inl ⟨hs, rfl, .inl ⟨rfl, by simp [State.waker, hp]⟩⟩
      · simpa [State.deliverable_eq_false_iff.mpr hno] using hs.deliverable ha hw

theorem State.AwaitedPending.advance {s : State} (h : s.AwaitedPending) : s.advance.AwaitedPending := ⟨h.ph, h.ifg⟩

/-- A weakly fair run releases the wait, by the consumption of the flag. -/
theorem State.AwaitedPending.eventually {s : State} {order : Nat → Agent} (hs : s.AwaitedPending) (ha : s.ArmInv)
    (hf : WeaklyFair order s) :
    Eventually order (fun t => t.released = true ∧ t.evk = s.evk ∧ t.ifg s.evk = false) s := by
  refine eventually_of_rank_of_next (wellFounded_lt (α := ℕ)) (fun t => t.AwaitedPending ∧ t.ArmInv ∧ t.evk = s.evk) _
    State.wakeRank State.waker ?_ ?_ ?_ hf ⟨hs, ha, rfl⟩
  · rintro a t ⟨ht, -, -⟩ -
    refine exists_agentStep_next (s := t.advance) ht.running ?_ a
    obtain hp | ⟨-, hw⟩ := ht.ph
    · cases hw : t.wait with
      | true => exact ⟨_, seqStep_of_wait (s := t.advance) hw⟩
      | false => exact ⟨_, seqStep_of_aw3 (s := t.advance) hw hp⟩
    · exact ⟨_, seqStep_of_wait (s := t.advance) hw⟩
  · rintro t ⟨ht, hta, -⟩ -
    obtain hp | ⟨hp, hw⟩ := ht.ph
    · have hw := hta.wait_eq_false (by simp [hp])
      simp [State.waker, State.enabled, State.ready, hp, hw]
    · simpa [State.waker, State.enabled, hp] using ht.deliverable hta hw
  · rintro a t u ⟨ht, hta, hk⟩ - h
    obtain ⟨hu, hku, hmove⟩ | ⟨-, -, hw, hp, hku, hifg⟩ := ht.advance.step hta.advance h
    · refine .inr ⟨⟨hu, agentStep_keeps_armInv h hta.advance, hku.trans hk⟩, ?_⟩
      obtain ⟨hp, hne⟩ | ⟨hp, hp'⟩ := hmove
      · have hp : u.ph = t.ph := hp
        exact .inr ⟨by rw [State.wakeRank, hp, State.wakeRank], by rw [State.waker, hp, State.waker], hne⟩
      · have hp : t.ph = .aw3 := hp
        exact .inl (by simp [State.wakeRank, hp, hp'])
    · exact .inl ⟨by simp [State.released, hp, hw], hku.trans hk, by rw [← hk]; exact hifg⟩

/-- Settles O20: the step lemma, and the fair run it leads through. -/
theorem noLostWakeup : Obligations.NoLostWakeup := by
  refine ⟨fun s t ha hp hifg h => ?_, fun s order ha hp hifg hf => State.AwaitedPending.eventually ⟨hp, hifg⟩ ha hf⟩
  have hs : s.AwaitedPending := ⟨hp, hifg⟩
  refine ⟨hs.deliverable ha, ?_⟩
  obtain ⟨ht, hk, -⟩ | ⟨hturn, hw, hw', hp', -, hifg'⟩ := hs.advance.step ha.advance h
  · exact .inl ⟨ht.ifg, hk, ht.ph⟩
  · exact .inr ⟨hturn, hw, hw', hp', hifg'⟩

/-- Settles O21: the release is the handler's, whose source is the awaited one; the sequencer leaves AW5 with WAIT = 0
only. -/
theorem noSpuriousReturn : Obligations.NoSpuriousReturn := by
  intro s t ha h
  obtain ⟨-, h⟩ | ⟨-, h⟩ | ⟨-, h⟩ | ⟨hturn, h⟩ := agentStep_cases h
  · refine ⟨fun hin hs ht => ?_, fun hp hp' => ?_⟩
    · have hrunning : s.advance.ph ≠ .idle := by rintro hp; simp_all [Phase.inWait]
      rw [hostStep_of_running hrunning] at h
      cases h
      exact absurd (show s.released = true from ht) (by simp [hs])
    · rw [hostStep_of_running (s := s.advance) (by simp [hp])] at h
      cases h
      exact absurd hp hp'
  · refine ⟨fun hin hs ht => ?_, fun hp hp' => ?_⟩
    · have hret := Phase.inWait_eq_false_of_continues (ha.returns hin)
      cases h
      case waiting => exact absurd (show s.released = true from ht) (by simp [hs])
      all_goals simp_all [State.released, Phase.inWait]
    · have hw : s.wait = false := by
        cases h <;> simp_all
      simp [State.released, hp, hw]
  · obtain ⟨-, rfl⟩ | ⟨-, -, rfl⟩ | ⟨-, -, rfl⟩ := shfStep_cases h <;>
      exact ⟨fun _ hs ht => absurd (show s.released = true from ht) (by simp [hs]), fun hp hp' => absurd hp hp'⟩
  · obtain ⟨hg, hr, rfl⟩ | ⟨hg, -, hx, rfl⟩ | ⟨-, rfl⟩ := irqStep_cases h
    · obtain ⟨he, hp, hifg⟩ := ha.advance.of_delivered hg hr
      have he : Event.rxf = s.evk := he
      refine ⟨fun _ _ _ => ⟨hturn, ?_⟩, fun hp hp' => absurd hp hp'⟩
      rw [← he]
      exact ⟨(Bool.and_eq_true_iff.mp hr).2, hifg, rfl⟩
    · obtain ⟨he, hp, hifg⟩ := ha.advance.of_delivered hg hx
      have he : Event.txe = s.evk := he
      refine ⟨fun _ _ _ => ⟨hturn, ?_⟩, fun hp hp' => absurd hp hp'⟩
      rw [← he]
      exact ⟨(Bool.and_eq_true_iff.mp hx).2, hifg, rfl⟩
    · exact ⟨fun _ hs ht => absurd (show s.released = true from ht) (by simp [hs]), fun hp hp' => absurd hp hp'⟩

/-- Settles O45: whoever moves, no guard holds. -/
theorem hangIsPermanent : Obligations.HangIsPermanent := by
  intro s hs
  refine ⟨?_, hs.ph, hs.wait, hs.load, hs.complete, hs.handler⟩
  rw [step]
  cases s.turn with
  | host => exact hostStep_of_running (s := s.advance) hs.ph
  | seq => exact seqStep_of_wait (s := s.advance) hs.wait
  | shf =>
    have hl : s.advance.canLoad = false := hs.load
    have hc : s.advance.canComplete = false := hs.complete
    simp [agentStep, shfStep, hl, hc]
  | irq =>
    obtain hg | ⟨hr, hx⟩ := State.deliverable_eq_false_iff.mp hs.handler
    · exact irqStep_of_masked (s := s.advance) hg
    · cases hg : s.gie with
      | false => exact irqStep_of_masked (s := s.advance) hg
      | true => rw [agentStep, irqStep_of_gie (s := s.advance) hg, State.takeInterrupt_of_none (s := s.advance) hr hx]

end Sys2Proof.Machine
end

section
/-! PROOFS. The bus settings (10_state.md R12, 41_bus_controller_shifter.md R84): states that differ in them alone take
the same step. No step reads a setting, and CF_INIT overwrites them all. -/

namespace Sys2Proof.Machine

/-- The same outcome but for the bus settings. -/
inductive SameOutcome : Result → Result → Prop
  | next {t t' : State} (h : t.sameButSettings t') : SameOutcome (.next t) (.next t')
  | fault (f : Fault) : SameOutcome (.fault f) (.fault f)
  | refused (r : Refusal) : SameOutcome (.refused r) (.refused r)

/-- `s` with the bus settings of `c`. -/
def State.withSettings (s c : State) : State :=
  { s with mst := c.mst, m3w := c.m3w, ckph := c.ckph, ckpl := c.ckpl, clksel := c.clksel, brdiv := c.brdiv }

theorem State.sameButSettings_iff {s s' : State} : s.sameButSettings s' ↔ s' = s.withSettings s' := Iff.rfl

theorem State.sameButSettings_withSettings (c s : State) : s.sameButSettings (s.withSettings c) := rfl

/-- A step that commutes with replacing the settings. -/
theorem SameOutcome.next_of_eq {c t t' : State} (h : t' = t.withSettings c) : SameOutcome (.next t) (.next t') := by
  subst h
  exact .next rfl

section
variable (c s : State)

theorem sbLoop_sameOutcome : SameOutcome (sbLoop s) (sbLoop (s.withSettings c)) := by
  have hm : (s.withSettings c).more = s.more := rfl
  have ho : (s.withSettings c).sendOperand = s.sendOperand := rfl
  unfold sbLoop
  rw [hm, ho]
  cases s.more
  · exact .next rfl
  · cases s.sendOperand
    · exact .fault _
    · exact .next rfl

theorem storeReceived_withSettings (op : Opcode) (v : Byte) :
    (s.withSettings c).storeReceived op v = (s.storeReceived op v).map (·.withSettings c) := by
  have ho : (s.withSettings c).opc = s.opc := rfl
  have hi : (s.withSettings c).idx = s.idx := rfl
  have hb : (s.withSettings c).bufcap = s.bufcap := rfl
  unfold State.storeReceived State.bufWrite
  rw [ho, hi, hb]
  split_ifs <;> rfl

theorem rbStore_sameOutcome : SameOutcome (rbStore s) (rbStore (s.withSettings c)) := by
  unfold rbStore
  rw [storeReceived_withSettings, show (s.withSettings c).rxRead = s.rxRead from rfl]
  cases s.storeReceived 5 s.rxRead
  · exact .fault _
  · exact .next rfl

theorem rrStore_sameOutcome : SameOutcome (rrStore s) (rrStore (s.withSettings c)) := by
  unfold rrStore
  rw [storeReceived_withSettings, show (s.withSettings c).rxRead = s.rxRead from rfl]
  cases s.storeReceived 7 s.rxRead
  · exact .fault _
  · exact .next rfl

/-! The phases with a branch: what they branch on is no setting. -/

theorem State.setIe_withSettings (k : Event) (b : Bool) :
    (s.withSettings c).setIe k b = (s.setIe k b).withSettings c := by cases k <;> rfl

theorem State.aw2_withSettings : (s.withSettings c).aw2 = s.aw2.withSettings c := by
  rw [State.aw2, show (s.withSettings c).evk = s.evk from rfl, State.setIe_withSettings]; rfl

theorem State.aw5_withSettings : (s.withSettings c).aw5 = s.aw5.withSettings c := by
  rw [State.aw5, show (s.withSettings c).evk = s.evk from rfl, State.setIe_withSettings]; rfl

theorem State.sbPoll_withSettings : (s.withSettings c).sbPoll = s.sbPoll.withSettings c := by
  rw [State.sbPoll, State.sbPoll, show (s.withSettings c).busy = s.busy from rfl]; split_ifs <;> rfl

theorem State.rbLoop_withSettings : (s.withSettings c).rbLoop = s.rbLoop.withSettings c := by
  rw [State.rbLoop, State.rbLoop, show (s.withSettings c).more = s.more from rfl]; split_ifs <;> rfl

theorem State.rrLoop_withSettings : (s.withSettings c).rrLoop = s.rrLoop.withSettings c := by
  rw [State.rrLoop, State.rrLoop, show (s.withSettings c).more = s.more from rfl]; split_ifs <;> rfl

theorem State.rrDly1_withSettings : (s.withSettings c).rrDly1 = s.rrDly1.withSettings c := by
  rw [State.rrDly1, State.rrDly1, show (s.withSettings c).dly = s.dly from rfl]; split_ifs <;> rfl

theorem State.rrDly2_withSettings : (s.withSettings c).rrDly2 = s.rrDly2.withSettings c := by
  rw [State.rrDly2, State.rrDly2, show (s.withSettings c).dly = s.dly from rfl]; split_ifs <;> rfl

theorem State.takeInterrupt_withSettings : (s.withSettings c).takeInterrupt = s.takeInterrupt.withSettings c := by
  rw [State.takeInterrupt, State.takeInterrupt, show (s.withSettings c).iv = s.iv from rfl]; split <;> rfl

/-! Each agent's step. -/

theorem seqStep_sameOutcome : SameOutcome (seqStep s) (seqStep (s.withSettings c)) := by
  unfold seqStep
  rw [show (s.withSettings c).wait = s.wait from rfl, show (s.withSettings c).ph = s.ph from rfl]
  cases s.wait
  swap
  · exact .next rfl
  cases s.ph
  case sbLoop => exact sbLoop_sameOutcome c s
  case rbStore => exact rbStore_sameOutcome c s
  case rrStore => exact rrStore_sameOutcome c s
  case aw2 => exact .next_of_eq (State.aw2_withSettings c s)
  case aw5 => exact .next_of_eq (State.aw5_withSettings c s)
  case sbPoll => exact .next_of_eq (State.sbPoll_withSettings c s)
  case rbLoop => exact .next_of_eq (State.rbLoop_withSettings c s)
  case rrDly1 => exact .next_of_eq (State.rrDly1_withSettings c s)
  case rrLoop => exact .next_of_eq (State.rrLoop_withSettings c s)
  case rrDly2 => exact .next_of_eq (State.rrDly2_withSettings c s)
  all_goals exact .next rfl

theorem shfStep_sameOutcome : SameOutcome (shfStep s) (shfStep (s.withSettings c)) := by
  unfold shfStep
  rw [show (s.withSettings c).canLoad = s.canLoad from rfl, show (s.withSettings c).canComplete = s.canComplete from rfl]
  split_ifs <;> exact .next rfl

theorem irqStep_sameOutcome : SameOutcome (irqStep s) (irqStep (s.withSettings c)) := by
  unfold irqStep
  rw [show (s.withSettings c).gie = s.gie from rfl]
  split_ifs
  · exact .next_of_eq (State.takeInterrupt_withSettings c s)
  · exact .next rfl

theorem issue_withSettings (i : Instr) : issue i (s.withSettings c) = (issue i s).withSettings c := by cases i <;> rfl

theorem hostStep_sameOutcome : SameOutcome (hostStep s) (hostStep (s.withSettings c)) := by
  by_cases hp : s.ph = .idle
  · have hr : s.ready = true := by simp [State.ready, hp]
    have hr' : (s.withSettings c).ready = true := hr
    have hport : (s.withSettings c).port = s.port := rfl
    have htick : (s.withSettings c).tick = s.tick := rfl
    unfold hostStep
    rw [hr, hr', hport, htick]
    cases s.port with
    | none =>
      cases Config.hostMove s.tick with
      | none => exact .next rfl
      | some m => exact .next rfl
    | some w =>
      simp only [issueWord]
      cases decode w with
      | error why => exact .refused _
      | ok i =>
        simp only [exec_of_idle (s := { s with port := none }) i hp,
          exec_of_idle (s := { s.withSettings c with port := none }) i hp]
        exact .next_of_eq (issue_withSettings c { s with port := none } i)
  · rw [hostStep_of_running hp, hostStep_of_running (s := s.withSettings c) hp]
    exact .next rfl

theorem agentStep_sameOutcome (a : Agent) : SameOutcome (agentStep a s) (agentStep a (s.withSettings c)) := by
  cases a with
  | host => exact hostStep_sameOutcome c s
  | seq => exact seqStep_sameOutcome c s
  | shf => exact shfStep_sameOutcome c s
  | irq => exact irqStep_sameOutcome c s

end

/-- Settles O55: the second state is the first with other settings, whoever moves. -/
theorem busSettingsAffectNoTransfer : Obligations.BusSettingsAffectNoTransfer := by
  intro s s' h
  have h : s' = s.withSettings s' := h
  have hstep : step s' = agentStep s.turn (s.advance.withSettings s') := by
    conv_lhs => rw [h]
    rfl
  have hsame := agentStep_sameOutcome s' s.advance s.turn
  rw [hstep, step]
  generalize agentStep s.turn s.advance = r, agentStep s.turn (s.advance.withSettings s') = r' at hsame
  cases hsame with
  | next ht => exact ht
  | fault f => rfl
  | refused r => rfl

end Sys2Proof.Machine
end

section
/-! PROOFS. The steps of a running operation, and that a weakly fair run of it gets to phase IDLE or to a hang
(20_memory.md R53, 70_reset_and_hazards.md R164): a rank that every helpful step lowers. -/

namespace Sys2Proof.Machine

/-! ## The steps while the host has no move -/

/-- What a step can do while the host makes no move: the sequencer's step, LOAD, COMPLETE, the handler taking a signaled
source, or nothing. -/
inductive RunCase (s : State) : State → Prop where
  | stay : RunCase s s
  | seq {t : State} (h : SeqCase s t) : RunCase s t
  | load (hen : s.en = true) (hfull : s.txfull = true) (hbusy : s.busy = false) : RunCase s s.load
  | complete (m : Byte) (hen : s.en = true) (hbusy : s.busy = true) : RunCase s (s.complete m)
  | rxf (hg : s.gie = true) (hk : s.signaled .rxf = true) : RunCase s { s with ifgRxf := false, wait := false }
  | txe (hg : s.gie = true) (hk : s.signaled .txe = true) : RunCase s { s with ifgTxe := false, wait := false }

theorem agentStep_runCase {a : Agent} {s t : State} (ha : a ≠ .host ∨ s.ph ≠ .idle) (h : agentStep a s = .next t) :
    RunCase s t := by
  obtain ⟨rfl, h'⟩ | ⟨-, h⟩ | ⟨-, h⟩ | ⟨-, h⟩ := agentStep_cases h
  · rw [hostStep_of_running (by simpa using ha)] at h'
    cases h'
    exact .stay
  · exact .seq h
  · obtain ⟨hl, rfl⟩ | ⟨-, hc, rfl⟩ | ⟨-, -, rfl⟩ := shfStep_cases h
    · simp only [State.canLoad, Bool.and_eq_true, Bool.not_eq_true'] at hl
      exact .load hl.1.1 hl.1.2 hl.2
    · obtain ⟨hen, hbusy⟩ := Bool.and_eq_true_iff.mp hc
      exact .complete _ hen hbusy
    · exact .stay
  · obtain ⟨hg, hk, rfl⟩ | ⟨hg, -, hk, rfl⟩ | ⟨-, rfl⟩ := irqStep_cases h
    · exact .rxf hg hk
    · exact .txe hg hk
    · exact .stay

section
variable {s t : State} (h : RunCase s t)
include h

theorem RunCase.cnt_eq : t.cnt = s.cnt := by
  cases h with
  | seq h => exact h.cnt_eq
  | _ => rfl

theorem RunCase.opc_eq : t.opc = s.opc := by
  cases h with
  | seq h => exact h.opc_eq
  | _ => rfl

theorem RunCase.adr_eq : t.adr = s.adr := by
  cases h with
  | seq h => exact h.adr_eq
  | _ => rfl

theorem RunCase.bufcap_eq : t.bufcap = s.bufcap := by
  cases h with
  | seq h => exact h.bufcap_eq
  | _ => rfl

theorem RunCase.en_of_en (hen : s.en = true) : t.en = true := by
  cases h with
  | seq h => exact h.en_of_en hen
  | _ => exact hen

end

/-- The opcode of the byte form of the operations a phase belongs to (30_encoding.md R65): 3 for the sends, 5 for the
receives, 7 for the register reads. -/
def Phase.byteForm : Phase → Opcode
  | .sbLoop | .sbNext | .sbPoll => 3
  | .rbLoop | .rbStore => 5
  | .rrAddr | .rrDisc | .rrSet1 | .rrDly1 | .rrLoop | .rrStore | .rrSet2 | .rrDly2 => 7
  | _ => 0

/-- Up to its return an operation stays among its own phases. -/
theorem SeqCase.byteForm_eq {s t : State} (h : SeqCase s t) :
    t.ph = .idle ∨ t.stage.byteForm = s.stage.byteForm := by
  cases h
  case waiting => exact .inr rfl
  all_goals simp_all [State.stage, Phase.inWait, Phase.byteForm]

theorem RunCase.byteForm_eq {s t : State} (h : RunCase s t) :
    t.ph = .idle ∨ t.stage.byteForm = s.stage.byteForm := by
  cases h with
  | seq h => exact h.byteForm_eq
  | _ => exact .inr rfl

/-- The sequencer has a next state unless it accesses the buffer beyond its capacity (20_memory.md R43). -/
theorem exists_seqStep_next {s : State}
    (hcap : (s.ph = .sbLoop ∧ s.idx < s.cnt ∧ s.opc ≠ 3) ∨ (s.ph = .rbStore ∧ s.opc ≠ 5) ∨
      (s.ph = .rrStore ∧ s.opc ≠ 7) → s.idx.toNat < s.bufcap) : ∃ t, seqStep s = .next t := by
  cases hw : s.wait with
  | true => exact ⟨s, seqStep_of_wait hw⟩
  | false =>
    unfold seqStep
    rw [hw]
    cases hp : s.ph
    case sbLoop =>
      cases hm : s.more with
      | false => exact ⟨_, sbLoop_of_le (BitVec.not_lt.mp (mt s.more_iff.mpr (by simp [hm])))⟩
      | true =>
        have hlt := s.more_iff.mp hm
        obtain ⟨-, he⟩ | ⟨-, -, he⟩ | ⟨ho, hover, -⟩ := s.sendOperand_cases
        · exact ⟨_, sbLoop_of_lt hlt he⟩
        · exact ⟨_, sbLoop_of_lt hlt he⟩
        · exact absurd (hcap (.inl ⟨hp, hlt, ho⟩)) (Nat.not_lt.mpr hover)
    case rbStore =>
      obtain ⟨-, he⟩ | ⟨-, -, he⟩ | ⟨ho, hover, -⟩ := s.storeReceived_cases 5 s.rxbuf
      · exact ⟨_, rbStore_of_stored he⟩
      · exact ⟨_, rbStore_of_stored he⟩
      · exact absurd (hcap (.inr (.inl ⟨hp, ho⟩))) (Nat.not_lt.mpr hover)
    case rrStore =>
      obtain ⟨-, he⟩ | ⟨-, -, he⟩ | ⟨ho, hover, -⟩ := s.storeReceived_cases 7 s.rxbuf
      · exact ⟨_, rrStore_of_stored he⟩
      · exact ⟨_, rrStore_of_stored he⟩
      · exact absurd (hcap (.inr (.inr ⟨hp, ho⟩))) (Nat.not_lt.mpr hover)
    all_goals exact ⟨_, rfl⟩

/-! ## The rank of a running operation -/

/-- How far a phase is from the end of its round of the loop. -/
def Phase.rank : Phase → Nat
  | .cfInit | .sbPoll | .rbStore => 1
  | .sbNext | .rbLoop | .rrDly2 => 2
  | .sbLoop | .rrSet2 => 3
  | .rrStore => 4
  | .rrLoop => 5
  | .rrDly1 => 6
  | .rrSet1 => 7
  | .rrDisc => 8
  | .rrAddr => 9
  | .idle | .aw1 | .aw2 | .aw3 | .aw5 => 0

/-- The same with the steps of the wait before a phase. -/
def State.position (s : State) : Nat :=
  match s.ph with
  | .aw1 => 6 * s.ret.rank + 5
  | .aw2 => 6 * s.ret.rank + 4
  | .aw3 => 6 * s.ret.rank + 3
  | .aw5 => 6 * s.ret.rank + (if s.wait then 2 else 1)
  | p => 6 * p.rank

/-- The shifter's steps to come. -/
def State.shifterWork (s : State) : Nat := 2 * s.txfull.toNat + s.busy.toNat

/-- The rank of a running operation: the bytes to go, the position in the round, the delay, the shifter's work. -/
def State.runRank (s : State) : ℕ ×ₗ ℕ ×ₗ ℕ ×ₗ ℕ :=
  toLex (s.cnt.toNat - s.idx.toNat, toLex (s.position, toLex (s.dly, s.shifterWork)))

/-- Who has a step that lowers the rank. -/
def State.helper (s : State) : Agent :=
  if s.wait then (if s.deliverable then .irq else .shf)
  else if s.ph = .sbPoll ∧ s.busy = true then .shf else .seq

theorem State.runRank_lt_iff {s t : State} :
    t.runRank < s.runRank ↔ t.cnt.toNat - t.idx.toNat < s.cnt.toNat - s.idx.toNat ∨
      t.cnt.toNat - t.idx.toNat = s.cnt.toNat - s.idx.toNat ∧ (t.position < s.position ∨
        t.position = s.position ∧ (t.dly < s.dly ∨ t.dly = s.dly ∧ t.shifterWork < s.shifterWork)) := by
  simp [State.runRank, Prod.Lex.toLex_lt_toLex]

/-- Where IDX advances there is one byte less to go. -/
theorem State.IdxInv.toGo_lt {s : State} (h : s.IdxInv) (hp : s.ph = .sbNext ∨ s.ph = .rbStore ∨ s.ph = .rrDly2) :
    s.cnt.toNat - (s.idx + 1).toNat < s.cnt.toNat - s.idx.toNat := by
  have hlt := h.lt_of_advancing hp
  rw [toNat_succ_of_lt hlt]
  have := BitVec.lt_def.mp hlt
  omega

/-- The position outside `armAndWait`. -/
theorem State.position_of_outside {s : State} (hp : s.ph.inWait = false) : s.position = 6 * s.ph.rank := by
  unfold State.position
  split <;> simp_all [Phase.inWait]

/-- Every step the sequencer takes in a running operation lowers the rank, but for a poll while BUSY = 1. -/
theorem SeqCase.runRank_lt {s t : State} (h : SeqCase s t) (ha : s.ArmInv) (hi : s.IdxInv) (hw : s.wait = false)
    (hp : s.ph ≠ .idle) (hpoll : ¬(s.ph = .sbPoll ∧ s.busy = true)) : t.runRank < s.runRank := by
  rw [State.runRank_lt_iff]
  cases h
  case waiting hw' => simp [hw] at hw'
  case idle hidle => exact absurd hidle hp
  case sbPollBusy hp' hb => exact absurd ⟨hp', hb⟩ hpoll
  case sbNext hp' | rbStoreRes hp' _ | rbStoreBuf hp' _ _ | rrDly2Done hp' _ =>
    exact .inl (hi.toGo_lt (by simp [hp']))
  case rrDly1Count hp' hd | rrDly2Count hp' hd =>
    exact .inr ⟨rfl, .inr ⟨by simp [State.position, hp'], .inl (Nat.sub_one_lt hd)⟩⟩
  case aw5 hp' =>
    have hret := Phase.inWait_eq_false_of_continues (ha.returns (by simp [hp', Phase.inWait]))
    refine .inr ⟨by simp, .inl ?_⟩
    rw [State.position_of_outside (by simpa using hret)]
    simp [State.position, hp', hw]
  case aw1 hp' | aw2 hp' | aw3 hp' => exact .inr ⟨by simp, .inl (by simp [State.position, hp'])⟩
  all_goals exact .inr ⟨by simp, .inl (by simp_all [State.position, Phase.rank])⟩

/-- What the handler leaves when it has taken a case. -/
def State.taken (s : State) (txe rxf : Bool) : State := { s with ifgTxe := txe, ifgRxf := rxf, wait := false }

/-- The handler's release lowers the rank. -/
theorem State.taken_runRank_lt {s : State} (txe rxf : Bool) (hp : s.ph = .aw5) (hw : s.wait = true) :
    (s.taken txe rxf).runRank < s.runRank :=
  State.runRank_lt_iff.mpr (.inr ⟨rfl, .inl (by simp [State.taken, State.position, hp, hw])⟩)

/-- LOAD and COMPLETE lower the rank. -/
theorem State.load_runRank_lt {s : State} (hfull : s.txfull = true) (hbusy : s.busy = false) :
    s.load.runRank < s.runRank :=
  State.runRank_lt_iff.mpr (.inr ⟨rfl, .inr ⟨rfl, .inr ⟨rfl, by simp [State.shifterWork, hfull, hbusy]⟩⟩⟩)

theorem State.complete_runRank_lt {s : State} (m : Byte) (hbusy : s.busy = true) :
    (s.complete m).runRank < s.runRank :=
  State.runRank_lt_iff.mpr (.inr ⟨rfl, .inr ⟨rfl, .inr ⟨rfl, by simp [State.shifterWork, hbusy]⟩⟩⟩)

/-- A second case taken after the release leaves the rank and the helper alone. -/
theorem State.taken_runRank_eq {s : State} (txe rxf : Bool) (hp : s.ph = .aw5) (hw : s.wait = false) :
    (s.taken txe rxf).runRank = s.runRank ∧ (s.taken txe rxf).helper = s.helper := by
  simp [State.taken, State.runRank, State.position, State.helper, State.shifterWork, hp, hw]

/-- Every step of a running operation lowers the rank, or leaves it and the helper alone. -/
theorem RunCase.runRank_le {s t : State} (h : RunCase s t) (ha : s.ArmInv) (hi : s.IdxInv) (hp : s.ph ≠ .idle) :
    t.runRank < s.runRank ∨ t.runRank = s.runRank ∧ t.helper = s.helper := by
  have htaken : ∀ txe rxf, s.ph = .aw5 →
      (s.taken txe rxf).runRank < s.runRank ∨
        (s.taken txe rxf).runRank = s.runRank ∧ (s.taken txe rxf).helper = s.helper := by
    intro txe rxf hp
    cases hw : s.wait with
    | true => exact .inl (State.taken_runRank_lt txe rxf hp hw)
    | false => exact .inr (State.taken_runRank_eq txe rxf hp hw)
  cases h with
  | stay => exact .inr ⟨rfl, rfl⟩
  | seq h =>
    cases hw : s.wait with
    | true =>
      have ht : t = s := by cases h <;> simp_all
      exact ht ▸ .inr ⟨rfl, rfl⟩
    | false =>
      by_cases hpoll : s.ph = .sbPoll ∧ s.busy = true
      · have ht : t = { s with ph := .sbPoll } := by cases h <;> simp_all
        rw [← hpoll.1] at ht
        exact ht ▸ .inr ⟨rfl, rfl⟩
      · exact .inl (h.runRank_lt ha hi hw hp hpoll)
  | load _ hfull hbusy => exact .inl (State.load_runRank_lt hfull hbusy)
  | complete m _ hbusy => exact .inl (State.complete_runRank_lt m hbusy)
  | rxf hg hk => exact htaken s.ifgTxe false (ha.of_delivered hg hk).2.1
  | txe hg hk => exact htaken false s.ifgRxf (ha.of_delivered hg hk).2.1

/-- In a wait that is no hang with nothing to deliver, the shifter has a step. -/
theorem State.shifter_of_not_hung {s : State} (hp : s.ph ≠ .idle) (hh : ¬s.hung) (hw : s.wait = true)
    (hd : s.deliverable = false) : s.canLoad = true ∨ s.canComplete = true := by
  by_contra hc
  simp only [not_or, Bool.not_eq_true] at hc
  exact hh ⟨hp, hw, hc.1, hc.2, hd⟩

/-- The shifter's step lowers the rank. -/
theorem shfStep_runRank_lt {s t : State} (h : shfStep s = .next t) (hc : s.canLoad = true ∨ s.canComplete = true) :
    t.runRank < s.runRank := by
  obtain ⟨hl, rfl⟩ | ⟨-, hc', rfl⟩ | ⟨hl, hc', rfl⟩ := shfStep_cases h
  · simp only [State.canLoad, Bool.and_eq_true, Bool.not_eq_true'] at hl
    exact State.load_runRank_lt hl.1.2 hl.2
  · exact State.complete_runRank_lt _ (Bool.and_eq_true_iff.mp hc').2
  · simp [hl, hc'] at hc

/-- The helper of a running operation that does not hang has a step, and that step lowers the rank. -/
theorem State.helper_enabled {s : State} (hp : s.ph ≠ .idle) (hh : ¬s.hung) (hen : s.en = true) :
    s.helper ≠ .host ∧ s.enabled s.helper = true := by
  unfold State.helper
  split_ifs with hw hd hpoll
  · exact ⟨by decide, hd⟩
  · have hshf := State.shifter_of_not_hung hp hh hw (by simpa using hd)
    exact ⟨by decide, by simpa [State.enabled] using hshf⟩
  · exact ⟨by decide, by simp [State.enabled, State.canComplete, hen, hpoll.2]⟩
  · exact ⟨by decide, by simp [State.enabled, State.ready, hw, hp]⟩

theorem State.helper_runRank_lt {s t : State} (h : agentStep s.helper s = .next t) (ha : s.ArmInv) (hi : s.IdxInv)
    (hp : s.ph ≠ .idle) (hh : ¬s.hung) (hen : s.en = true) : t.runRank < s.runRank := by
  unfold State.helper at h
  split_ifs at h with hw hd hpoll
  · have hp5 := ha.waiting hw
    obtain ⟨-, -, rfl⟩ | ⟨-, -, -, rfl⟩ | ⟨hno, -⟩ := irqStep_cases h
    · exact State.taken_runRank_lt s.ifgTxe false hp5 hw
    · exact State.taken_runRank_lt false s.ifgRxf hp5 hw
    · simp [State.deliverable_eq_false_iff.mpr hno] at hd
  · exact shfStep_runRank_lt h (State.shifter_of_not_hung hp hh hw (by simpa using hd))
  · exact shfStep_runRank_lt h (.inr (by simp [State.canComplete, hen, hpoll.2]))
  · exact (seqStep_cases h).runRank_lt ha hi (by simpa using hw) hp hpoll

/-! ## Running invariants -/

/-- An invariant of a running operation on an enabled controller under which the sequencer never faults. -/
structure RunInv (Q : State → Prop) : Prop where
  armInv : ∀ s, Q s → s.ArmInv
  idxInv : ∀ s, Q s → s.IdxInv
  en : ∀ s, Q s → s.en = true
  advance : ∀ s, Q s → Q s.advance
  step : ∀ a s t, Q s → a ≠ .host ∨ s.ph ≠ .idle → agentStep a s = .next t → Q t
  next : ∀ s, Q s → s.ph ≠ .idle → ∃ t, seqStep s = .next t

/-- What holds at the start of a run without the host holds wherever it gets to. -/
theorem RunInv.of_reaches {Q : State → Prop} (hQ : RunInv Q) {s t : State} (h : Reaches s t) (hs : Q s) : Q t :=
  h.preserves (fun a s t ha hs h => hQ.step a s.advance t (hQ.advance s hs) (.inl ha) h) hs

/-- A weakly fair run of an operation under such an invariant returns or gets to a hang, the invariant holding there. -/
theorem RunInv.eventually {Q : State → Prop} (hQ : RunInv Q) {s : State} {order : Nat → Agent} (hs : Q s)
    (hf : WeaklyFair order s) : Eventually order (fun t => (t.ph = .idle ∨ t.hung) ∧ Q t) s := by
  refine eventually_of_rank_of_next (r := (· < ·)) wellFounded_lt Q _ State.runRank State.helper ?_ ?_ ?_ hf hs
  · rintro a s hs hgoal
    have hp : s.ph ≠ .idle := fun hp => hgoal ⟨.inl hp, hs⟩
    exact exists_agentStep_next (s := s.advance) hp (hQ.next _ (hQ.advance s hs) hp) a
  · rintro s hs hgoal
    exact State.helper_enabled (fun hp => hgoal ⟨.inl hp, hs⟩) (fun hh => hgoal ⟨.inr hh, hs⟩) (hQ.en s hs)
  · rintro a s t hs hgoal h
    have hp : s.ph ≠ .idle := fun hp => hgoal ⟨.inl hp, hs⟩
    have hh : ¬s.hung := fun hh => hgoal ⟨.inr hh, hs⟩
    have hs' := hQ.advance s hs
    have ha := hQ.armInv _ hs'
    have hi := hQ.idxInv _ hs'
    refine .inr ⟨hQ.step a s.advance t hs' (.inr hp) h, ?_⟩
    by_cases hhelp : a = s.helper
    · subst hhelp
      have hh' : ¬s.advance.hung := fun hh' => hh ⟨hh'.ph, hh'.wait, hh'.load, hh'.complete, hh'.handler⟩
      exact .inl (State.helper_runRank_lt (s := s.advance) h ha hi hp hh' (hQ.en s hs))
    · obtain hlt | ⟨heq, hhelp'⟩ := (agentStep_runCase (s := s.advance) (.inr hp) h).runRank_le ha hi hp
      · exact .inl hlt
      · exact .inr ⟨heq, hhelp', hhelp⟩

/-- The first steps under an order are a run of a list of agents. -/
theorem runFor_eq_runAgents (n : Nat) (order : Nat → Agent) (s : State) :
    runFor n order s = runAgents ((List.range n).map order) s := by
  induction n generalizing order s with
  | zero => rfl
  | succ n ih =>
    rw [List.range_succ_eq_map, List.map_cons, List.map_map]
    simp only [runFor, runAgents]
    cases act (order 0) s with
    | next t => exact ih _ t
    | fault f => rfl
    | refused r => rfl

/-- Under such an invariant some run without the host gets to a return or a hang. -/
theorem RunInv.exists_reaches {Q : State → Prop} (hQ : RunInv Q) {s : State} (hs : Q s) :
    ∃ t, Reaches s t ∧ (t.ph = .idle ∨ t.hung) ∧ Q t := by
  obtain ⟨n, t, hrun, ht⟩ := hQ.eventually hs (WeaklyFair.of_fairOrder rotation_fair s)
  have hhost : Agent.host ∉ (List.range n).map rotation := by
    simp only [List.mem_map, not_exists, not_and]
    intro k _
    unfold rotation
    split_ifs <;> decide
  exact ⟨t, ⟨_, hhost, by rw [← runFor_eq_runAgents, hrun]⟩, ht⟩

/-! ## Which operations hang -/

/-- With the controller enabled the only hang is a receive-full wait of a receive. -/
theorem State.hung.receive {s : State} (hh : s.hung) (hs : s.ExchangeInv) (hen : s.en = true) :
    s.ph = .aw5 ∧ s.evk = .rxf ∧ s.ret = .rbStore ∧ s.ifgRxf = false ∧ s.busy = false ∧ s.txfull = false := by
  have hp := hs.waiting hh.wait
  have hin : s.ph.inWait = true := by simp [hp, Phase.inWait]
  have hbusy : s.busy = false := by simpa [State.canComplete, hen] using hh.complete
  have hfull : s.txfull = false := by simpa [State.canLoad, hen, hbusy] using hh.load
  have hifg : s.ifg s.evk = false := by
    by_contra hifg
    have hpend : s.AwaitedPending := ⟨.inr ⟨hp, hh.wait⟩, by simpa using hifg⟩
    simpa [hpend.deliverable hs.toArmInv hh.wait] using hh.handler
  have hreleased : s.released = false := by simp [State.released, hh.wait]
  have hret := hs.returns hin
  cases hk : s.evk with
  | txe =>
    have hpend : s.bytePending = true := by simp [State.bytePending, hin, hk, hreleased]
    have hnot := hs.pending hpend
    rw [hk] at hifg
    simp [hfull, show s.ifgTxe = false from hifg] at hnot
  | rxf =>
    rw [hk] at hifg hret
    have hrxf : s.ifgRxf = false := hifg
    have hcoming := fun hc => hs.coming hin hc hreleased
    simp only [hfull, hbusy, hrxf, Bool.false_eq_true, or_self, imp_false, not_or] at hcoming
    refine ⟨hp, rfl, ?_, hrxf, hbusy, hfull⟩
    revert hret
    cases hr : s.ret <;> simp_all [Phase.continues]

/-- The state of a running operation whose buffer is large enough. -/
structure State.RunningWithin (s : State) : Prop where
  exchangeInv : s.ExchangeInv
  idxInv : s.IdxInv
  en : s.en = true
  cap : s.cnt.toNat ≤ s.bufcap

theorem runningWithin_runInv : RunInv State.RunningWithin where
  armInv _ h := h.exchangeInv.toArmInv
  idxInv _ h := h.idxInv
  en _ h := h.en
  advance _ h := ⟨h.exchangeInv.advance, h.idxInv.advance, h.en, h.cap⟩
  step a s t hs ha h := by
    have hrun := agentStep_runCase ha h
    exact ⟨agentStep_keeps_exchangeInv h hs.exchangeInv, agentStep_keeps_idxInv h hs.exchangeInv.toArmInv hs.idxInv,
      hrun.en_of_en hs.en, by rw [hrun.cnt_eq, hrun.bufcap_eq]; exact hs.cap⟩
  next s hs hp := by
    refine exists_seqStep_next fun hacc => ?_
    have hlt : s.idx < s.cnt := by
      obtain ⟨-, hlt, -⟩ | ⟨hp, -⟩ | ⟨hp, -⟩ := hacc
      · exact hlt
      · exact hs.idxInv.lt (by simp [State.stage, hp, Phase.inWait, Phase.insideLoop])
      · exact hs.idxInv.lt (by simp [State.stage, hp, Phase.inWait, Phase.insideLoop])
    exact (BitVec.lt_def.mp hlt).trans_le hs.cap

/-- Settles O46: the hang by the exchange invariant, the fair run by the rank. -/
theorem onlyReceiveOperationsHang : Obligations.OnlyReceiveOperationsHang := by
  refine ⟨fun s hs hen hh => hh.receive hs hen, fun s order hs hi hen hcap hf => ?_⟩
  obtain ⟨n, t, hrun, ht, -⟩ := runningWithin_runInv.eventually ⟨hs, hi, hen, hcap⟩ hf
  exact ⟨n, t, hrun, ht⟩

end Sys2Proof.Machine
end

section
/-! PROOFS. A running operation seen with its waits drawn together: the stage it is at, and whether the wait before that
stage is over. The steps of `armAndWait` do not show in this view; the handler's release does. The invariants of the
transfers are stated of the view. -/

namespace Sys2Proof.Machine

/-- The wait before the current stage is over: there is none, or the handler has released it. -/
def State.waitOver (s : State) : Bool := !s.ph.inWait || s.released

/-- The view of a state: PH is the stage, WAIT holds until the release, and what only `armAndWait` and the handler use
is left out. -/
def State.view (s : State) : State :=
  { s with ph := s.stage, wait := !s.waitOver, evk := .txe, ret := .idle, ieTxe := false, ieRxf := false, gie := false,
           turn := .host, tick := 0 }

theorem State.waitOver_of_outside {s : State} (hp : s.ph.inWait = false) : s.waitOver = true := by
  simp [State.waitOver, hp]

theorem State.waitOver_of_aw5 {s : State} (hp : s.ph = .aw5) : s.waitOver = !s.wait := by
  simp [State.waitOver, State.released_of_aw5 hp, hp, Phase.inWait]

/-- What a step of the view can do. A byte is written to the transmit register only when that is empty. -/
inductive ViewCase (v : State) : State → Prop where
  | stay : ViewCase v v
  | load (hen : v.en = true) (hfull : v.txfull = true) (hbusy : v.busy = false) : ViewCase v v.load
  | complete (m : Byte) (hen : v.en = true) (hbusy : v.busy = true) : ViewCase v (v.complete m)
  | txe (hw : v.wait = true) (hk : v.ph.continues .txe = true) (hifg : v.ifgTxe = true) :
      ViewCase v { v with ifgTxe := false, wait := false }
  | rxf (hk : v.ph.continues .rxf = true) (hifg : v.ifgRxf = true) : ViewCase v { v with ifgRxf := false, wait := false }
  | configure (hw : v.wait = false) (hp : v.ph = .cfInit) : ViewCase v (v.configure Config.clock)
  | sbWrite (b : Byte) (hw : v.wait = false) (hp : v.ph = .sbLoop) (hlt : v.idx < v.cnt) (hb : v.sendOperand = .ok b)
      (hfull : v.txfull = false) : ViewCase v { v.txWrite b with ph := .sbNext, wait := true }
  | sbDone (hw : v.wait = false) (hp : v.ph = .sbLoop) (hge : v.cnt ≤ v.idx) : ViewCase v { v with ph := .sbPoll }
  | sbNext (hw : v.wait = false) (hp : v.ph = .sbNext) : ViewCase v { v with idx := v.idx + 1, ph := .sbLoop }
  | sbReturn (hw : v.wait = false) (hp : v.ph = .sbPoll) (hbusy : v.busy = false) (hfull : v.txfull = false) :
      ViewCase v { v with ph := .idle }
  | rbWait (hw : v.wait = false) (hp : v.ph = .rbLoop) (hlt : v.idx < v.cnt) :
      ViewCase v { v with ph := .rbStore, wait := true }
  | rbReturn (hw : v.wait = false) (hp : v.ph = .rbLoop) (hge : v.cnt ≤ v.idx) : ViewCase v { v with ph := .idle }
  | rbStoreRes (hw : v.wait = false) (hp : v.ph = .rbStore) (ho : v.opc = 5) :
      ViewCase v { v with res := v.rxbuf, idx := v.idx + 1, ph := .rbLoop }
  | rbStoreBuf (hw : v.wait = false) (hp : v.ph = .rbStore) (ho : v.opc ≠ 5) :
      ViewCase v { v with buf := Memory.write v.buf v.idx.toNat v.rxbuf, idx := v.idx + 1, ph := .rbLoop }
  | rrAddr (hw : v.wait = false) (hp : v.ph = .rrAddr) (hfull : v.txfull = false) :
      ViewCase v { v.txWrite v.adr with ph := .rrDisc, wait := true }
  | rrDisc (hw : v.wait = false) (hp : v.ph = .rrDisc) : ViewCase v { v with ph := .rrSet1, wait := true }
  | rrDly1 (n : Nat) (hw : v.wait = false) (hp : v.ph = .rrSet1 ∨ v.ph = .rrDly1) :
      ViewCase v { v with dly := n, ph := .rrDly1 }
  | rrDly1Done (hw : v.wait = false) (hp : v.ph = .rrDly1) : ViewCase v { v with ph := .rrLoop }
  | rrWrite (hw : v.wait = false) (hp : v.ph = .rrLoop) (hlt : v.idx < v.cnt) (hfull : v.txfull = false) :
      ViewCase v { v.txWrite dummyByte with ph := .rrStore, wait := true }
  | rrReturn (hw : v.wait = false) (hp : v.ph = .rrLoop) (hge : v.cnt ≤ v.idx) : ViewCase v { v with ph := .idle }
  | rrStoreRes (hw : v.wait = false) (hp : v.ph = .rrStore) (ho : v.opc = 7) :
      ViewCase v { v with res := v.rxbuf, ph := .rrSet2, wait := true }
  | rrStoreBuf (hw : v.wait = false) (hp : v.ph = .rrStore) (ho : v.opc ≠ 7) :
      ViewCase v { v with buf := Memory.write v.buf v.idx.toNat v.rxbuf, ph := .rrSet2, wait := true }
  | rrDly2 (n : Nat) (hw : v.wait = false) (hp : v.ph = .rrSet2 ∨ v.ph = .rrDly2) :
      ViewCase v { v with dly := n, ph := .rrDly2 }
  | rrDly2Done (hw : v.wait = false) (hp : v.ph = .rrDly2) : ViewCase v { v with idx := v.idx + 1, ph := .rrLoop }

/-- Outside `armAndWait` the view shows PH itself, and no wait. -/
theorem State.view_of_outside {s : State} (hp : s.ph.inWait = false) :
    s.view = { s with ph := s.ph, wait := false, evk := .txe, ret := .idle, ieTxe := false, ieRxf := false, gie := false,
                      turn := .host, tick := 0 } := by
  rw [State.view, State.stage_of_outside hp, State.waitOver_of_outside hp]
  rfl

/-- The steps of `armAndWait` do not show in the view. -/
theorem SeqCase.view_of_inWait {s t : State} (h : SeqCase s t) (ha : s.ArmInv) (hin : s.ph.inWait = true) :
    t.view = s.view := by
  cases h
  case waiting => rfl
  case aw1 hw hp | aw3 hw hp =>
    simp [State.view, State.stage, State.waitOver, State.released_of_ne, hp, Phase.inWait]
  case aw2 hw hp =>
    cases hk : s.evk <;>
      simp [State.view, State.stage, State.waitOver, State.released_of_ne, hp, Phase.inWait, State.aw2_of_evk hk,
        State.setIe]
  case aw5 hw hp =>
    have hret := Phase.inWait_eq_false_of_continues (ha.returns hin)
    have hover : s.waitOver = true := by simp [State.waitOver_of_aw5 hp, hw]
    rw [State.view_of_outside (s := s.aw5) (by simpa using hret), State.view, hover, State.stage_of_inWait hin]
    cases hk : s.evk <;> rw [State.aw5_of_evk hk] <;> rfl
  all_goals simp_all [Phase.inWait]

/-- Outside `armAndWait` a step of the sequencer is a step of the view. -/
theorem SeqCase.viewCase_of_outside {s t : State} (h : SeqCase s t) (hs : s.ExchangeInv) (hout : s.ph.inWait = false) :
    ViewCase s.view t.view := by
  have hfull : ¬(s.ph = .rrDisc ∨ s.ph = .rrStore) → s.txfull = false := fun hp => by
    have hclear := ((State.exchangeInv_iff_of_outside hout).mp hs).2
    rw [if_neg hp] at hclear
    exact hclear.1
  have hmore : s.more = false → s.cnt ≤ s.idx := fun hm => BitVec.not_lt.mp (mt s.more_iff.mpr (by simp [hm]))
  rw [State.view_of_outside hout]
  cases h
  case waiting => rw [State.view_of_outside hout]; exact .stay
  case idle => rw [State.view_of_outside hout]; exact .stay
  case cfInit hw hp => exact .configure rfl hp
  case sbWrite v hw hp hm hv => exact .sbWrite v rfl hp (s.more_iff.mp hm) hv (hfull (by simp [hp]))
  case sbDone hw hp hm => exact .sbDone rfl hp (hmore hm)
  case sbNext hw hp => exact .sbNext rfl hp
  case sbPollBusy hw hp hb => rw [← hp]; rw [State.view_of_outside hout]; exact .stay
  case sbPollDone hw hp hb => exact .sbReturn rfl hp hb (hfull (by simp [hp]))
  case rbWait hw hp hm => exact .rbWait rfl hp (s.more_iff.mp hm)
  case rbDone hw hp hm => exact .rbReturn rfl hp (hmore hm)
  case rbStoreRes hw hp ho => exact .rbStoreRes rfl hp ho
  case rbStoreBuf hw hp ho hcap => exact .rbStoreBuf rfl hp ho
  case rrAddr hw hp => exact .rrAddr rfl hp (hfull (by simp [hp]))
  case rrDisc hw hp => exact .rrDisc rfl hp
  case rrSet1 hw hp => exact .rrDly1 _ rfl (.inl hp)
  case rrDly1Count hw hp hd => exact .rrDly1 _ rfl (.inr hp)
  case rrDly1Done hw hp hd => exact .rrDly1Done rfl hp
  case rrWrite hw hp hm => exact .rrWrite rfl hp (s.more_iff.mp hm) (hfull (by simp [hp]))
  case rrDone hw hp hm => exact .rrReturn rfl hp (hmore hm)
  case rrStoreRes hw hp ho => exact .rrStoreRes rfl hp ho
  case rrStoreBuf hw hp ho hcap => exact .rrStoreBuf rfl hp ho
  case rrSet2 hw hp => exact .rrDly2 _ rfl (.inl hp)
  case rrDly2Count hw hp hd => exact .rrDly2 _ rfl (.inr hp)
  case rrDly2Done hw hp hd => exact .rrDly2Done rfl hp
  all_goals simp_all [Phase.inWait]

/-- The handler's case clears a flag and ends the wait of the view. -/
theorem State.view_taken {s : State} (txe rxf : Bool) (hp : s.ph = .aw5) :
    (s.taken txe rxf).view = { s.view with ifgTxe := txe, ifgRxf := rxf, wait := false } := by
  have hover : (s.taken txe rxf).waitOver = true := by
    rw [State.waitOver_of_aw5 (s := s.taken txe rxf) hp]
    rfl
  rw [State.view, hover]
  rfl

/-- In phase AW5 a pending transmit-empty has not been taken yet. -/
theorem State.ExchangeInv.wait_of_txe {s : State} (hs : s.ExchangeInv) (hp : s.ph = .aw5) (hk : s.evk = .txe)
    (hifg : s.ifgTxe = true) : s.wait = true := by
  by_contra hw
  have hret := hs.returns (by simp [hp, Phase.inWait])
  have hclear := hs.clear (by
    rw [hk] at hret
    simp only [State.bytePending, State.stage_of_inWait (s := s) (by simp [hp, Phase.inWait]), State.released_of_aw5 hp]
    cases hr : s.ret <;> simp_all [Phase.continues])
  simp [hclear.2] at hifg

/-- Every step while the host makes no move is a step of the view. -/
theorem RunCase.viewCase {s t : State} (h : RunCase s t) (hs : s.ExchangeInv) : ViewCase s.view t.view := by
  cases h with
  | stay => exact .stay
  | seq h =>
    cases hin : s.ph.inWait with
    | false => exact h.viewCase_of_outside hs hin
    | true =>
      rw [h.view_of_inWait hs.toArmInv hin]
      exact .stay
  | load hen hfull hbusy => exact .load hen hfull hbusy
  | complete m hen hbusy => exact .complete m hen hbusy
  | rxf hg hk =>
    obtain ⟨he, hp, hifg⟩ := hs.of_delivered hg hk
    have hin : s.ph.inWait = true := by simp [hp, Phase.inWait]
    have hret : s.stage.continues .rxf = true := by rw [State.stage_of_inWait hin, he]; exact hs.returns hin
    have hview := State.view_taken s.ifgTxe false hp
    exact hview ▸ ViewCase.rxf (v := s.view) hret hifg
  | txe hg hk =>
    obtain ⟨he, hp, hifg⟩ := hs.of_delivered hg hk
    have hin : s.ph.inWait = true := by simp [hp, Phase.inWait]
    have hret : s.stage.continues .txe = true := by rw [State.stage_of_inWait hin, he]; exact hs.returns hin
    have hw : s.view.wait = true := by
      simp [State.view, State.waitOver_of_aw5 hp, hs.wait_of_txe hp he.symm hifg]
    have hview := State.view_taken false s.ifgRxf hp
    exact hview ▸ ViewCase.txe (v := s.view) hw hret hifg

theorem agentStep_viewCase {a : Agent} {s t : State} (ha : a ≠ .host ∨ s.ph ≠ .idle) (h : agentStep a s = .next t)
    (hs : s.ExchangeInv) : ViewCase s.view t.view :=
  (agentStep_runCase ha h).viewCase hs

@[simp] theorem State.view_advance (s : State) : s.advance.view = s.view := rfl

end Sys2Proof.Machine
end

section
/-! PROOFS. The bytes on their way (41_bus_controller_shifter.md R89): what has been written since some moment is what has
been exchanged since, then what is in flight and queued. -/

namespace Sys2Proof.Machine

/-- Since `s₀` the bytes `sent` have been written and the exchanges `got` completed; what is written and not exchanged is
in flight or queued. -/
structure Traffic (s₀ : State) (sent : List Byte) (got : List (Byte × Byte)) (s : State) : Prop where
  txlog : s.txlog = s₀.txlog ++ sent
  wire : s.wire = s₀.wire ++ got
  inFlight : sent = got.map Prod.fst ++ s.inFlight

section
variable {s₀ s : State} {sent : List Byte} {got : List (Byte × Byte)} (h : Traffic s₀ sent got s)
include h

/-- LOAD moves the queued byte into flight. -/
theorem Traffic.load (hfull : s.txfull = true) (hbusy : s.busy = false) : Traffic s₀ sent got s.load where
  txlog := h.txlog
  wire := h.wire
  inFlight := by
    have hsent := h.inFlight
    simp only [State.inFlight, hfull, hbusy, cond_true, cond_false, List.nil_append] at hsent
    simp [State.inFlight, hsent]

/-- COMPLETE exchanges the byte in flight. -/
theorem Traffic.complete (m : Byte) (hbusy : s.busy = true) :
    Traffic s₀ sent (got ++ [(s.shreg, m)]) (s.complete m) where
  txlog := h.txlog
  wire := by simp [h.wire]
  inFlight := by
    have hsent := h.inFlight
    simp only [State.inFlight, hbusy, cond_true] at hsent
    simp [State.inFlight, hsent]

/-- A write to the empty transmit register queues the byte. -/
theorem Traffic.txWrite (v : Byte) (hfull : s.txfull = false) : Traffic s₀ (sent ++ [v]) got (s.txWrite v) where
  txlog := by simp [h.txlog]
  wire := h.wire
  inFlight := by
    have hsent := h.inFlight
    simp only [State.inFlight, hfull, cond_false, List.append_nil] at hsent
    simp [State.inFlight, hsent]

/-- A step that touches neither the transmit register nor the shift register. -/
theorem Traffic.of_same {t : State} (htx : t.txbuf = s.txbuf ∧ t.txfull = s.txfull ∧ t.txlog = s.txlog)
    (hbusy : t.busy = s.busy) (hshreg : t.shreg = s.shreg) (hwire : t.wire = s.wire) : Traffic s₀ sent got t where
  txlog := htx.2.2.trans h.txlog
  wire := hwire.trans h.wire
  inFlight := by
    rw [State.inFlight, htx.1, htx.2.1, hbusy, hshreg]
    exact h.inFlight

/-- With nothing in flight or queued, all that was written has been exchanged. -/
theorem Traffic.exchanged (hfull : s.txfull = false) (hbusy : s.busy = false) : got.map Prod.fst = sent := by
  simpa [State.inFlight, hfull, hbusy] using h.inFlight.symm

/-- At most what was written has been exchanged. -/
theorem Traffic.length_le : got.length ≤ sent.length := by
  rw [h.inFlight]
  simp

end

/-- The sequencer's step writes at most one byte, and only where none is queued. -/
theorem SeqCase.traffic {s₀ s t : State} {sent : List Byte} {got : List (Byte × Byte)} (h : SeqCase s t)
    (hs : s.ExchangeInv) (ht : Traffic s₀ sent got s) : ∃ sent', Traffic s₀ sent' got t := by
  have hsame : t.txbuf = s.txbuf ∧ t.txfull = s.txfull ∧ t.txlog = s.txlog → ∃ sent', Traffic s₀ sent' got t :=
    fun htx => ⟨sent, ht.of_same htx h.busy_eq h.shreg_eq h.wire_eq⟩
  have hfull : s.ph = .sbLoop ∨ s.ph = .rrAddr ∨ s.ph = .rrLoop → s.txfull = false := fun hp => by
    have hout : s.ph.inWait = false := by obtain hp | hp | hp := hp <;> simp [hp, Phase.inWait]
    have hclear := ((State.exchangeInv_iff_of_outside hout).mp hs).2
    rw [if_neg (by obtain hp | hp | hp := hp <;> simp [hp])] at hclear
    exact hclear.1
  cases h with
  | sbWrite v hw hp =>
    have hw := ht.txWrite v (hfull (.inl hp))
    exact ⟨_, hw.txlog, hw.wire, hw.inFlight⟩
  | rrAddr hw hp =>
    have hw := ht.txWrite s.adr (hfull (.inr (.inl hp)))
    exact ⟨_, hw.txlog, hw.wire, hw.inFlight⟩
  | rrWrite hw hp =>
    have hw := ht.txWrite dummyByte (hfull (.inr (.inr hp)))
    exact ⟨_, hw.txlog, hw.wire, hw.inFlight⟩
  | _ => exact hsame (by simp)

/-- The log and the wire from the start: the accounting of `Traffic` since a state with both empty. -/
theorem State.logInv_iff {s : State} : s.LogInv ↔ ∃ sent got, Traffic State.reset sent got s := by
  refine ⟨fun h => ⟨s.txlog, s.wire, rfl, rfl, h⟩, fun ⟨sent, got, h⟩ => ?_⟩
  have hlog : s.txlog = sent := h.txlog
  have hwire : s.wire = got := h.wire
  rw [State.LogInv, hlog, hwire]
  exact h.inFlight

/-- Every step keeps the accounting. -/
theorem agentStep_keeps_logInv {a : Agent} {s t : State} (h : agentStep a s = .next t) (he : s.ExchangeInv)
    (hs : s.LogInv) : t.LogInv := by
  rw [State.logInv_iff] at hs ⊢
  obtain ⟨sent, got, hs⟩ := hs
  obtain ⟨-, h⟩ | ⟨-, h⟩ | ⟨-, h⟩ | ⟨-, h⟩ := agentStep_cases h
  · obtain ⟨-, w, i, -, -, rfl⟩ | ⟨-, -, m, rfl⟩ | rfl := hostStep_cases h
    · exact ⟨sent, got, hs.of_same (by simp) (by simp) (by simp) (by simp)⟩
    · exact ⟨sent, got, hs.of_same (by simp) (by simp) (by simp) (by simp)⟩
    · exact ⟨sent, got, hs⟩
  · obtain ⟨sent', ht⟩ := h.traffic he hs
    exact ⟨sent', got, ht⟩
  · obtain ⟨hl, rfl⟩ | ⟨-, hc, rfl⟩ | ⟨-, -, rfl⟩ := shfStep_cases h
    · simp only [State.canLoad, Bool.and_eq_true, Bool.not_eq_true'] at hl
      exact ⟨sent, got, hs.load hl.1.2 hl.2⟩
    · exact ⟨sent, _, hs.complete _ (Bool.and_eq_true_iff.mp hc).2⟩
    · exact ⟨sent, got, hs⟩
  · obtain ⟨-, -, rfl⟩ | ⟨-, -, -, rfl⟩ | ⟨-, rfl⟩ := irqStep_cases h <;>
      exact ⟨sent, got, hs.txlog, hs.wire, hs.inFlight⟩

/-- Something is queued or in flight on an enabled controller, and no exchange since the wire was `w`. -/
structure State.Exchanging (w : List (Byte × Byte)) (s : State) : Prop where
  en : s.en = true
  work : s.txfull = true ∨ s.busy = true
  wire : s.wire = w

/-- The step of an agent other than the shifter neither takes a queued byte nor exchanges one. -/
theorem State.Exchanging.step_of_ne {w : List (Byte × Byte)} {a : Agent} {s t : State} (hs : s.Exchanging w)
    (ha : a ≠ .shf) (h : agentStep a s = .next t) : t.Exchanging w ∧ t.busy = s.busy := by
  obtain ⟨-, h⟩ | ⟨-, h⟩ | ⟨hshf, -⟩ | ⟨-, h⟩ := agentStep_cases h
  · obtain ⟨-, w, i, -, -, rfl⟩ | ⟨-, -, m, rfl⟩ | rfl := hostStep_cases h
    · exact ⟨⟨by simpa using hs.en, by simpa using hs.work, by simpa using hs.wire⟩, by simp⟩
    · exact ⟨⟨hs.en, hs.work, hs.wire⟩, rfl⟩
    · exact ⟨hs, rfl⟩
  · refine ⟨⟨h.en_of_en hs.en, ?_, h.wire_eq.trans hs.wire⟩, h.busy_eq⟩
    rw [h.busy_eq]
    obtain hfull | ⟨-, hfull⟩ := h.txfull_cases
    · rw [hfull]
      exact hs.work
    · exact .inl hfull
  · exact absurd hshf ha
  · obtain ⟨-, -, rfl⟩ | ⟨-, -, -, rfl⟩ | ⟨-, rfl⟩ := irqStep_cases h <;> exact ⟨⟨hs.en, hs.work, hs.wire⟩, rfl⟩

/-- The shifter's step loads the queued byte or exchanges the one in flight. -/
theorem State.Exchanging.step_of_shf {w : List (Byte × Byte)} {s t : State} (hs : s.Exchanging w)
    (h : shfStep s = .next t) :
    (s.busy = false ∧ t.busy = true ∧ t.Exchanging w) ∨ w.length < t.wire.length := by
  obtain ⟨hl, rfl⟩ | ⟨-, -, rfl⟩ | ⟨hl, hc, -⟩ := shfStep_cases h
  · simp only [State.canLoad, Bool.and_eq_true, Bool.not_eq_true'] at hl
    exact .inl ⟨hl.2, rfl, hs.en, .inr rfl, hs.wire⟩
  · exact .inr (by simp [hs.wire])
  · have hwork := hs.work
    simp_all [State.canLoad, State.canComplete, hs.en]

/-- A weakly fair run of an enabled controller exchanges a byte that is queued or in flight, or stops: the shifter's
step stays enabled, and at the second one the exchange completes. -/
theorem State.Exchanging.eventually {s : State} {order : Nat → Agent} (hs : s.Exchanging s.wire)
    (hf : WeaklyFair order s) : Eventually order (fun t => s.wire.length < t.wire.length) s ∨ Stops order s := by
  refine eventually_of_rank (wellFounded_lt (α := ℕ)) (State.Exchanging s.wire) _ (fun t => (!t.busy).toNat)
    (fun _ => .shf) ?_ ?_ hf hs
  · intro t ht _
    refine ⟨by decide, ?_⟩
    have hwork := ht.work
    cases hb : t.busy <;> simp_all [State.enabled, State.canLoad, State.canComplete, ht.en]
  · intro a t u ht _ h
    have ht' : t.advance.Exchanging s.wire := ⟨ht.en, ht.work, ht.wire⟩
    by_cases ha : a = .shf
    · subst ha
      obtain ⟨hb, hb', hu⟩ | hlt := ht'.step_of_shf h
      · exact .inr ⟨hu, .inl (by simp [hb', show t.busy = false from hb])⟩
      · exact .inl hlt
    · obtain ⟨hu, hb⟩ := ht'.step_of_ne ha h
      exact .inr ⟨hu, .inr ⟨by rw [hb]; rfl, rfl, ha⟩⟩

/-- Settles O50: the accounting step by step and at power-on, and the fair run. -/
theorem exchangesFollowWrites : Obligations.ExchangesFollowWrites := by
  refine ⟨fun s t he hs h => agentStep_keeps_logInv h he.advance hs, fun s h => ?_, fun s order hen hwork hf => ?_⟩
  · simp [State.LogInv, State.inFlight, h.txlog, h.wire, h.busy, h.txfull]
  · exact State.Exchanging.eventually ⟨hen, hwork, rfl⟩ hf

end Sys2Proof.Machine
end

section
/-! PROOFS. Transfers from their issue on: with the clock running a send or a register read returns
(70_reset_and_hazards.md R161), before INIT no transfer does (R158). -/

namespace Sys2Proof.Machine

/-- An operation just issued is in the state its issue step leaves (30_encoding.md R59). -/
theorem Issued.eq {i : Instr} {s s1 : State} (h : Issued i s s1) : s1 = issue i s := by
  obtain ⟨hp, h⟩ := h
  rw [exec_of_idle i hp] at h
  cases h
  rfl

/-- A send-ready state meets the exchange invariant, and so does every operation issued there. -/
theorem State.sendReady.exchangeInv {s : State} (h : s.sendReady) : s.ExchangeInv :=
  (exchangeInvariantWhenIdle s h.ph).mpr ⟨h.ieTxe, h.ieRxf, h.wait, h.ifgTxe, h.txfull⟩

theorem State.sendReady.exchangeInv_issue {s : State} (h : s.sendReady) (i : Instr) : (issue i s).ExchangeInv :=
  h.exchangeInv.issue h.ph s.port i

/-- The idle block stays idle while the host makes no move. -/
theorem RunCase.ph_of_idle {s t : State} (h : RunCase s t) (hp : s.ph = .idle) : t.ph = .idle := by
  cases h with
  | seq h => cases h <;> simp_all
  | _ => exact hp

/-- An operation whose byte form has opcode `b` (30_encoding.md R65) is in progress, or has returned. -/
def State.InFamily (b : Opcode) (s : State) : Prop := s.ph = .idle ∨ s.stage.byteForm = b

theorem RunCase.inFamily {b : Opcode} {s t : State} (h : RunCase s t) (hs : s.InFamily b) : t.InFamily b := by
  obtain hp | hb := hs
  · exact .inl (h.ph_of_idle hp)
  · exact h.byteForm_eq.imp_right (·.trans hb)

/-- The phases of a family outside `armAndWait`. -/
theorem State.InFamily.byteForm_eq {b : Opcode} {s : State} (h : s.InFamily b) (hne : s.ph ≠ .idle)
    (hout : s.ph.inWait = false) : s.ph.byteForm = b := by
  have hb := h.resolve_left hne
  rwa [State.stage_of_outside hout] at hb

/-! ## With the clock running -/

/-- An operation of a family running on an enabled controller, its accesses to the buffer within the capacity. -/
structure State.Running (b : Opcode) (s : State) : Prop where
  exchangeInv : s.ExchangeInv
  idxInv : s.IdxInv
  en : s.en = true
  family : s.InFamily b
  cap : s.opc = b ∨ s.cnt.toNat ≤ s.bufcap

theorem running_runInv (b : Opcode) : RunInv (State.Running b) where
  armInv _ h := h.exchangeInv.toArmInv
  idxInv _ h := h.idxInv
  en _ h := h.en
  advance _ h := ⟨h.exchangeInv.advance, h.idxInv.advance, h.en, h.family, h.cap⟩
  step a s t hs ha h := by
    have hrun := agentStep_runCase ha h
    exact ⟨agentStep_keeps_exchangeInv h hs.exchangeInv, agentStep_keeps_idxInv h hs.exchangeInv.toArmInv hs.idxInv,
      hrun.en_of_en hs.en, hrun.inFamily hs.family, by
        rw [hrun.opc_eq, hrun.cnt_eq, hrun.bufcap_eq]; exact hs.cap⟩
  next s hs hp := by
    refine exists_seqStep_next fun hacc => ?_
    have hfam := hs.family.byteForm_eq hp
    have hacc' : s.opc ≠ b ∧ s.idx < s.cnt := by
      obtain ⟨hp, hlt, ho⟩ | ⟨hp, ho⟩ | ⟨hp, ho⟩ := hacc <;> rw [hp] at hfam <;> obtain rfl := hfam rfl
      · exact ⟨ho, hlt⟩
      · exact ⟨ho, hs.idxInv.lt (by simp [State.stage, hp, Phase.inWait, Phase.insideLoop])⟩
      · exact ⟨ho, hs.idxInv.lt (by simp [State.stage, hp, Phase.inWait, Phase.insideLoop])⟩
    exact (BitVec.lt_def.mp hacc'.2).trans_le (hs.cap.resolve_left hacc'.1)

/-- Only the receives hang. -/
theorem State.Running.not_hung {b : Opcode} {s : State} (h : s.Running b) (hb : b ≠ 5) : ¬s.hung := by
  intro hh
  obtain ⟨hp, -, hret, -⟩ := hh.receive h.exchangeInv h.en
  have hfam := h.family.resolve_left hh.ph
  rw [State.stage_of_inWait (by simp [hp, Phase.inWait]), hret] at hfam
  exact hb hfam.symm

/-- An operation issued in a send-ready state is running. -/
theorem State.sendReady.running_issue {s : State} (h : s.sendReady) (i : Instr) {b : Opcode}
    (hb : (issue i s).ph.byteForm = b) (hcap : i.opcode = b ∨ (issue i s).cnt.toNat ≤ s.bufcap) :
    (issue i s).Running b where
  exchangeInv := h.exchangeInv_issue i
  idxInv := issue_idxInv i s
  en := by simp [h.en]
  family := .inr (by rw [State.stage_of_outside (by simp)]; exact hb)
  cap := by simpa using hcap

/-- From every point of it a running operation can return, unless it is a receive. -/
theorem State.Running.exists_returnsIn {b : Opcode} {s : State} (h : s.Running b) (hb : b ≠ 5) : ∃ t, ReturnsIn s t := by
  obtain ⟨t, hreach, hend, ht⟩ := (running_runInv b).exists_reaches h
  exact ⟨t, hreach, hend.resolve_right (ht.not_hung hb)⟩

/-- In every weakly fair run it returns. -/
theorem State.Running.eventually_idle {b : Opcode} {s : State} (h : s.Running b) (hb : b ≠ 5) {order : Nat → Agent}
    (hf : WeaklyFair order s) : Eventually order (fun t => t.ph = .idle) s := by
  obtain ⟨n, t, hrun, hend, ht⟩ := (running_runInv b).eventually h hf
  exact ⟨n, t, hrun, hend.resolve_right (ht.not_hung hb)⟩

/-- Settles O43: a running send or register read never hangs, so a fair run of it ends in phase IDLE. -/
theorem transfersWithClockCanAlwaysReturn : Obligations.TransfersWithClockCanAlwaysReturn := by
  intro s s1 i hs hi hiss
  obtain ⟨b, hb, hrun⟩ : ∃ b, b ≠ 5 ∧ s1.Running b := by
    rw [hiss.eq]
    obtain ⟨count, rfl, hcap⟩ | ⟨byte, rfl⟩ | ⟨regaddr, count, rfl, hcap⟩ | ⟨regaddr, rfl⟩ := hi
    · exact ⟨3, by decide, hs.running_issue _ rfl (.inr hcap)⟩
    · exact ⟨3, by decide, hs.running_issue _ rfl (.inl rfl)⟩
    · exact ⟨7, by decide, hs.running_issue _ rfl (.inr hcap)⟩
    · exact ⟨7, by decide, hs.running_issue _ rfl (.inl rfl)⟩
  refine ⟨fun u hu => ((running_runInv b).of_reaches hu hrun).exists_returnsIn hb,
    fun order hf => hrun.eventually_idle hb hf, ?_⟩
  obtain ⟨n, t, h, ht⟩ := hrun.eventually_idle hb (WeaklyFair.of_fairOrder s1.order_fair s1)
  exact ⟨n, t, by rw [runSteps_eq_runFor]; exact h, ht⟩

/-! ## Before INIT -/

/-- A transfer on a disabled controller with no flag pending: at its start with a byte to go, or in its first wait. -/
structure State.Stuck (w : List (Byte × Byte)) (s : State) : Prop where
  armInv : s.ArmInv
  en : s.en = false
  ifgTxe : s.ifgTxe = false
  ifgRxf : s.ifgRxf = false
  wire : s.wire = w
  place : (s.ph.inWait = true ∧ s.released = false) ∨ s.ph = .rrAddr ∨ (s.ph = .sbLoop ∨ s.ph = .rbLoop) ∧ s.idx < s.cnt

theorem SeqCase.keeps_stuck {w : List (Byte × Byte)} {s t : State} (h : SeqCase s t) (hs : s.Stuck w) : t.Stuck w := by
  have hcf : s.ph ≠ .cfInit := by
    obtain ⟨hp, -⟩ | hp | ⟨hp | hp, -⟩ := hs.place <;> intro hc <;> simp [hc, Phase.inWait] at hp
  obtain ⟨htxe, hrxf⟩ := h.flags_eq hcf
  refine ⟨h.keeps_armInv hs.armInv, (h.settings_eq hcf).1.trans hs.en, htxe.trans hs.ifgTxe, hrxf.trans hs.ifgRxf,
    h.wire_eq.trans hs.wire, ?_⟩
  have hplace := hs.place
  cases h
  case waiting => exact hplace
  case aw5 hw hp => simp [State.released_of_aw5 hp, hp, hw] at hplace
  case aw1 | aw2 | aw3 => exact .inl ⟨by simp [Phase.inWait], by simp [State.released]⟩
  case sbWrite | rbWait | rrAddr => exact .inl ⟨rfl, State.released_of_ne (by simp)⟩
  case sbDone hp hm | rbDone hp hm => simp [hp, ← State.more_iff, hm, Phase.inWait] at hplace
  all_goals simp_all [Phase.inWait]

theorem RunCase.keeps_stuck {w : List (Byte × Byte)} {s t : State} (h : RunCase s t) (hs : s.Stuck w) : t.Stuck w := by
  cases h with
  | stay => exact hs
  | seq h => exact h.keeps_stuck hs
  | load hen | complete _ hen => simp [hs.en] at hen
  | rxf hg hk => simpa [hs.ifgRxf, State.ifg] using (hs.armInv.of_delivered hg hk).2.2
  | txe hg hk => simpa [hs.ifgTxe, State.ifg] using (hs.armInv.of_delivered hg hk).2.2

theorem State.Stuck.ph_ne_idle {w : List (Byte × Byte)} {s : State} (h : s.Stuck w) : s.ph ≠ .idle := by
  intro hp
  simpa [hp, Phase.inWait] using h.place

/-- Settles O44: neither the shifter nor the handler has a step, so the first wait is never released. -/
theorem transfersBeforeInitHang : Obligations.TransfersBeforeInitHang := by
  intro s s1 t i hs hen htxe hrxf hi hiss hreach
  have hout : s.ph.inWait = false := by simp [hs.ph, Phase.inWait]
  have harm : s.ArmInv := (State.armInv_iff_of_outside hout).mpr ⟨hs.ieTxe, hs.ieRxf, hs.wait⟩
  have hstuck : s1.Stuck s.wire := by
    rw [hiss.eq]
    refine ⟨(State.armInv_iff_of_outside (by simp)).mpr (by simp [issue_wait, hs.ieTxe, hs.ieRxf, hs.wait]),
      by simp [hen], by simp [htxe], by simp [hrxf], by simp, .inr ?_⟩
    have hlt : ∀ count : Count, 1 ≤ count → (0 : Count) < count := fun count h => by bv_omega
    obtain ⟨count, rfl, hc⟩ | ⟨byte, rfl⟩ | ⟨count, rfl, hc⟩ | rfl | ⟨regaddr, count, rfl⟩ | ⟨regaddr, rfl⟩ := hi
    · exact .inr ⟨.inl rfl, hlt count hc⟩
    · exact .inr ⟨.inl rfl, hlt 1 (by decide)⟩
    · exact .inr ⟨.inr rfl, hlt count hc⟩
    · exact .inr ⟨.inr rfl, hlt 1 (by decide)⟩
    · exact .inl rfl
    · exact .inl rfl
  have ht : t.Stuck s.wire := hreach.preserves (P := State.Stuck s.wire)
    (fun a u v ha hu h => (agentStep_runCase (s := u.advance) (.inl ha) h).keeps_stuck
      ⟨hu.armInv.advance, hu.en, hu.ifgTxe, hu.ifgRxf, hu.wire, hu.place⟩) hstuck
  exact ⟨ht.ph_ne_idle, ht.wire⟩

end Sys2Proof.Machine
end

section
/-! PROOFS. The receives (44_transfer_receive.md R114, R115): they start no exchange, so they take the one byte a stale
receive-full flag announces, and then wait for ever. -/

namespace Sys2Proof.Machine

section
variable {v w : State} (h : ViewCase v w)
include h

theorem ViewCase.opc_eq : w.opc = v.opc := by cases h <;> rfl
theorem ViewCase.cnt_eq : w.cnt = v.cnt := by cases h <;> rfl
theorem ViewCase.adr_eq : w.adr = v.adr := by cases h <;> rfl
theorem ViewCase.bufcap_eq : w.bufcap = v.bufcap := by cases h <;> rfl

end

/-- How many receive-full flags a receive has consumed: one for each byte stored, and one when the wait before a store
is over. -/
def State.flagsTaken (v : State) : Nat := v.idx.toNat + (if v.ph = .rbStore ∧ v.wait = false then 1 else 0)

/-- A receive that started in `s₀` with nothing queued and nothing in flight, as its view shows it. -/
structure ReceiveView (s₀ v : State) : Prop where
  ph : v.ph = .rbLoop ∨ v.ph = .rbStore ∨ v.ph = .idle
  opc : v.opc = s₀.opc
  cnt : v.cnt = s₀.cnt
  bufcap : v.bufcap = s₀.bufcap
  busy : v.busy = false
  txfull : v.txfull = false
  txlog : v.txlog = s₀.txlog
  wire : v.wire = s₀.wire
  rxbuf : v.rxbuf = s₀.rxbuf
  flags : v.flagsTaken + v.ifgRxf.toNat = s₀.ifgRxf.toNat
  res : v.res = if v.idx ≠ 0 ∧ s₀.opc = 5 then s₀.rxbuf else s₀.res
  buf : v.buf = if v.idx ≠ 0 ∧ s₀.opc ≠ 5 then Memory.write s₀.buf 0 s₀.rxbuf else s₀.buf
  done : v.ph = .idle → v.cnt ≤ v.idx

/-- At a store the flag has been the stale one, and the byte is the first. -/
theorem ReceiveView.of_store {s₀ v : State} (h : ReceiveView s₀ v) (hw : v.wait = false) (hp : v.ph = .rbStore) :
    s₀.ifgRxf = true ∧ v.ifgRxf = false ∧ v.idx = 0 := by
  have hflags := h.flags
  have hle := Bool.toNat_le s₀.ifgRxf
  simp only [State.flagsTaken, hp, hw, and_self, if_true] at hflags
  exact ⟨Bool.toNat_eq_one.mp (by omega), Bool.toNat_eq_zero.mp (by omega), BitVec.eq_of_toNat_eq (by simp; omega)⟩

/-- Every step of the view keeps it. -/
theorem ReceiveView.step {s₀ v w : State} (h : ReceiveView s₀ v) (hc : ViewCase v w) : ReceiveView s₀ w := by
  have hph := h.ph
  have hflags := h.flags
  have hle := Bool.toNat_le s₀.ifgRxf
  have hdone := h.done
  simp only [State.flagsTaken] at hflags
  cases hc
  case stay => exact h
  case load hfull _ => simp [h.txfull] at hfull
  case complete hbusy => simp [h.busy] at hbusy
  case txe hk _ => obtain hp | hp | hp := hph <;> simp [hp, Phase.continues] at hk
  case rxf hk hifg =>
    have hp : v.ph = .rbStore := by obtain hp | hp | hp := hph <;> simp_all [Phase.continues]
    refine { h with flags := ?_ }
    simp only [hp, hifg, true_and, Bool.toNat_true] at hflags
    simp only [State.flagsTaken, hp, and_self, if_true, Bool.toNat_false]
    split_ifs at hflags <;> omega
  case rbWait hp _ =>
    refine { h with ph := .inr (.inl rfl), flags := ?_, done := fun hi => by simp at hi }
    simpa [hp, State.flagsTaken] using hflags
  case rbReturn hp hge =>
    refine { h with ph := .inr (.inr rfl), flags := ?_, done := fun _ => hge }
    simpa [hp, State.flagsTaken] using hflags
  case rbStoreRes hw hp ho =>
    obtain ⟨hstale, hifg, hidx⟩ := h.of_store hw hp
    have ho' : s₀.opc = 5 := h.opc ▸ ho
    refine { h with ph := .inl rfl, flags := ?_, res := ?_, buf := ?_, done := fun hi => by simp at hi }
    · simp [State.flagsTaken, hidx, hifg, hstale]
    · simp [hidx, ho', h.rxbuf]
    · simp [hidx, ho', h.buf]
  case rbStoreBuf hw hp ho =>
    obtain ⟨hstale, hifg, hidx⟩ := h.of_store hw hp
    have ho' : s₀.opc ≠ 5#4 := h.opc ▸ ho
    refine { h with ph := .inl rfl, flags := ?_, res := ?_, buf := ?_, done := fun hi => by simp at hi }
    · simp [State.flagsTaken, hidx, hifg, hstale]
    · simp [hidx, ho', h.res]
    · simp [hidx, ho', h.buf, h.rxbuf]
  case rrDly1 hp | rrDly2 hp => obtain hp | hp := hp <;> simp [hp] at hph
  all_goals simp_all

/-- A receive on an enabled controller, started in `s₀`; if there is a stale flag, its byte has a place. -/
structure Receiving (s₀ s : State) : Prop where
  exchangeInv : s.ExchangeInv
  idxInv : s.IdxInv
  en : s.en = true
  view : ReceiveView s₀ s.view
  cap : s₀.ifgRxf = true → s₀.opc = 5 ∨ 0 < s₀.bufcap

theorem receiving_runInv (s₀ : State) : RunInv (Receiving s₀) where
  armInv _ h := h.exchangeInv.toArmInv
  idxInv _ h := h.idxInv
  en _ h := h.en
  advance _ h := ⟨h.exchangeInv.advance, h.idxInv.advance, h.en, h.view, h.cap⟩
  step a s t hs ha h := ⟨agentStep_keeps_exchangeInv h hs.exchangeInv,
    agentStep_keeps_idxInv h hs.exchangeInv.toArmInv hs.idxInv, (agentStep_runCase ha h).en_of_en hs.en,
    hs.view.step (agentStep_viewCase ha h hs.exchangeInv), hs.cap⟩
  next s hs hp := by
    refine exists_seqStep_next fun hacc => ?_
    have hph := hs.view.ph
    obtain ⟨hp, -⟩ | ⟨hp, ho⟩ | ⟨hp, -⟩ := hacc <;>
      have hview := State.view_of_outside (s := s) (by simp [hp, Phase.inWait])
    · simp [hview, hp] at hph
    · obtain ⟨hstale, -, hidx⟩ := hs.view.of_store (by simp [hview]) (by simp [hview, hp])
      have hcap := (hs.cap hstale).resolve_left (hs.view.opc ▸ ho)
      rw [show s.idx = 0 from hidx, show s.bufcap = s₀.bufcap from hs.view.bufcap]
      exact hcap
    · simp [hview, hp] at hph

/-- A receive issued in a send-ready state. -/
theorem State.sendReady.receiving_issue {s : State} (h : s.sendReady) {i : Instr} (hp : (issue i s).ph = .rbLoop)
    (hcap : s.ifgRxf = true → i.opcode = 5 ∨ 0 < s.bufcap) : Receiving (issue i s) (issue i s) where
  exchangeInv := h.exchangeInv_issue i
  idxInv := issue_idxInv i s
  en := by simp [h.en]
  view := by
    rw [State.view_of_outside (by simp)]
    exact ⟨.inl hp, rfl, rfl, rfl, by simp [h.busy], by simp [h.txfull], rfl, rfl, rfl, by simp [State.flagsTaken, hp],
      by simp, by simp, fun hi => by simp [hp] at hi⟩
  cap := by simpa using hcap

section
variable {s₀ s : State} (h : Receiving s₀ s)
include h

/-- IDX counts stale flags. -/
theorem Receiving.idx_le : s.idx.toNat ≤ s₀.ifgRxf.toNat := by
  have hflags := h.view.flags
  simp only [State.flagsTaken, show s.view.idx = s.idx from rfl] at hflags
  omega

theorem Receiving.cnt_le_of_idle (hp : s.ph = .idle) : s₀.cnt ≤ s.idx := by
  have hdone := h.view.done (by rw [State.view_of_outside (by simp [hp, Phase.inWait])]; exact hp)
  rwa [h.view.cnt] at hdone

/-- In a hang every stale flag has been consumed. -/
theorem Receiving.idx_of_hung (hh : s.hung) : s.idx.toNat = s₀.ifgRxf.toNat := by
  obtain ⟨hp, -, -, hifg, -⟩ := hh.receive h.exchangeInv h.en
  have hflags := h.view.flags
  have hw : s.view.wait = true := by simp [State.view, State.waitOver_of_aw5 hp, hh.wait]
  simpa [State.flagsTaken, hw, show s.view.idx = s.idx from rfl, show s.view.ifgRxf = false from hifg] using hflags

theorem Receiving.idx_lt_of_hung (hh : s.hung) : s.idx < s₀.cnt := by
  obtain ⟨hp, -, hret, -⟩ := hh.receive h.exchangeInv h.en
  have hlt := h.idxInv.lt (by simp [State.stage, hp, hret, Phase.inWait, Phase.insideLoop])
  rwa [show s.cnt = s₀.cnt from h.view.cnt] at hlt

/-- With more to receive than stale flags it never returns. -/
theorem Receiving.ph_ne_idle (hlt : s₀.ifgRxf.toNat < s₀.cnt.toNat) : s.ph ≠ .idle := by
  intro hp
  have hcnt := BitVec.le_def.mp (h.cnt_le_of_idle hp)
  have hidx := h.idx_le
  omega

/-- With no more to receive than stale flags it never hangs. -/
theorem Receiving.not_hung (hle : s₀.cnt.toNat ≤ s₀.ifgRxf.toNat) : ¬s.hung := by
  intro hh
  have hlt := BitVec.lt_def.mp (h.idx_lt_of_hung hh)
  have hidx := h.idx_of_hung hh
  omega

/-- What it can reach and where every weakly fair run of it gets to, when it cannot return. -/
theorem Receiving.hangs (hlt : s₀.ifgRxf.toNat < s₀.cnt.toNat) :
    (∀ t, Reaches s t → Receiving s₀ t ∧ t.ph ≠ .idle) ∧ (∃ t, Reaches s t ∧ t.hung ∧ Receiving s₀ t) ∧
      ∀ order, WeaklyFair order s → Eventually order State.hung s := by
  refine ⟨fun t ht => ?_, ?_, fun order hf => ?_⟩
  · have ht := (receiving_runInv s₀).of_reaches ht h
    exact ⟨ht, ht.ph_ne_idle hlt⟩
  · obtain ⟨t, hreach, hend, ht⟩ := (receiving_runInv s₀).exists_reaches h
    exact ⟨t, hreach, hend.resolve_left (ht.ph_ne_idle hlt), ht⟩
  · obtain ⟨n, t, hrun, hend, ht⟩ := (receiving_runInv s₀).eventually h hf
    exact ⟨n, t, hrun, hend.resolve_left (ht.ph_ne_idle hlt)⟩

/-- The same when it cannot hang. -/
theorem Receiving.returns (hle : s₀.cnt.toNat ≤ s₀.ifgRxf.toNat) :
    (∃ t, ReturnsIn s t) ∧ ∀ order, WeaklyFair order s → Eventually order (fun t => t.ph = .idle) s := by
  refine ⟨?_, fun order hf => ?_⟩
  · obtain ⟨t, hreach, hend, ht⟩ := (receiving_runInv s₀).exists_reaches h
    exact ⟨t, hreach, hend.resolve_right (ht.not_hung hle)⟩
  · obtain ⟨n, t, hrun, hend, ht⟩ := (receiving_runInv s₀).eventually h hf
    exact ⟨n, t, hrun, hend.resolve_right (ht.not_hung hle)⟩

/-- Returned with every flag consumed it leaves a clean state. -/
theorem Receiving.clean_of_idle (hp : s.ph = .idle) (hle : s₀.ifgRxf.toNat ≤ s.idx.toNat) : s.clean := by
  obtain ⟨htxe, hrxf, hw, hifg, hfull⟩ := (exchangeInvariantWhenIdle s hp).mp h.exchangeInv
  have hflags := h.view.flags
  simp only [State.flagsTaken, show s.view.idx = s.idx from rfl, show s.view.ifgRxf = s.ifgRxf from rfl] at hflags
  exact ⟨⟨⟨hp, hw, htxe, hrxf, hfull, h.view.busy⟩, h.en, hifg⟩, Bool.toNat_eq_zero.mp (by omega)⟩

/-- What it has stored once it has consumed a flag. -/
theorem Receiving.stored (hidx : s.idx ≠ 0) :
    s.res = (if s₀.opc = 5 then s₀.rxbuf else s₀.res) ∧
      s.buf = if s₀.opc ≠ 5 then Memory.write s₀.buf 0 s₀.rxbuf else s₀.buf := by
  have hres := h.view.res
  have hbuf := h.view.buf
  have hidx' : s.view.idx ≠ 0 := hidx
  simp only [hidx', ne_eq, not_false_eq_true, true_and] at hres hbuf
  exact ⟨hres, hbuf⟩

end

/-- Settles O33: without a stale flag the receive consumes none, so its first wait is never over. -/
theorem receiveHangsFromClean : Obligations.ReceiveHangsFromClean := by
  intro s s1 i hs hi hiss
  obtain rfl := hiss.eq
  obtain ⟨hp, hcnt⟩ : (issue i s).ph = .rbLoop ∧ 1 ≤ (issue i s).cnt := by
    obtain rfl | ⟨count, rfl, hc⟩ := hi
    · exact ⟨rfl, BitVec.le_refl _⟩
    · exact ⟨rfl, hc⟩
  have hifg : (issue i s).ifgRxf = false := by simp [hs.ifgRxf]
  have hrec := hs.receiving_issue hp (by simp [hs.ifgRxf])
  have hzero : ∀ t : State, Receiving (issue i s) t → t.idx = 0 := fun t ht => by
    have := ht.idx_le
    simp only [hifg, Bool.toNat_false] at this
    bv_omega
  obtain ⟨hall, ⟨t, hreach, hh, ht⟩, hfair⟩ := hrec.hangs (by simp only [hifg, Bool.toNat_false]; bv_omega)
  refine ⟨fun t ht => ?_, ⟨t, hreach, hh, ?_⟩, hfair⟩
  · obtain ⟨ht, hne⟩ := hall t ht
    have hbuf := ht.view.buf
    have hres := ht.view.res
    simp only [show t.view.idx = 0 from hzero t ht, ne_eq, not_true_eq_false, false_and, if_false, issue_buf,
      issue_res] at hbuf hres
    exact ⟨hne, ht.view.txlog.trans (by simp), ht.view.wire.trans (by simp), hbuf, hres⟩
  · obtain ⟨hp, hk, -⟩ := hh.receive ht.exchangeInv ht.en
    exact ⟨(ht.exchangeInv.armed .rxf).mpr ⟨hk.symm, .inr hp⟩, ht.exchangeInv.delivering hp, hzero t ht⟩

/-- Settles O34: the receive consumes the one stale flag and stores the byte in RXBUF; a second one has no flag left. -/
theorem receiveAfterSendTakesStaleByte : Obligations.ReceiveAfterSendTakesStaleByte := by
  intro s hs hwf hcap
  have hrec : ∀ i s1, (issue i s).ph = .rbLoop → Issued i s s1 →
      Receiving s1 s1 ∧ s1.ifgRxf.toNat = 1 := fun i s1 hp hiss => by
    obtain rfl := hiss.eq
    exact ⟨hs.receiving_issue hp fun _ => .inr hcap, by simp [hs.ifgRxf]⟩
  have hone : ∀ s1 t : State, Receiving s1 t → s1.ifgRxf.toNat = 1 → s1.cnt = 1 → t.ph = .idle →
      t.idx ≠ 0 ∧ t.clean := fun s1 t ht hifg hcnt hp => by
    have hle := ht.cnt_le_of_idle hp
    rw [hcnt] at hle
    exact ⟨by bv_omega, ht.clean_of_idle hp (by bv_omega)⟩
  refine ⟨fun s1 hiss => ?_, fun s1 hiss => ?_, fun count s1 hcount hiss => ?_⟩
  · obtain ⟨h1, hifg⟩ := hrec .recvbyte s1 rfl hiss
    obtain rfl := hiss.eq
    obtain ⟨hex, hfair⟩ := h1.returns (by rw [hifg]; rfl)
    refine ⟨hex, hfair, fun t ⟨hreach, hp⟩ => ?_⟩
    have ht := (receiving_runInv _).of_reaches hreach h1
    obtain ⟨hidx, hclean⟩ := hone _ t ht hifg rfl hp
    obtain ⟨hres, hbuf⟩ := ht.stored hidx
    exact ⟨hres, hclean, ht.view.txlog, ht.view.wire, hbuf⟩
  · obtain ⟨h1, hifg⟩ := hrec (.recvbuf 1) s1 rfl hiss
    obtain rfl := hiss.eq
    obtain ⟨hex, hfair⟩ := h1.returns (by rw [hifg]; rfl)
    refine ⟨hex, hfair, fun t ⟨hreach, hp⟩ => ?_⟩
    have ht := (receiving_runInv _).of_reaches hreach h1
    obtain ⟨hidx, hclean⟩ := hone _ t ht hifg rfl hp
    refine ⟨?_, hclean⟩
    rw [(ht.stored hidx).2]
    exact Memory.read_write_self hwf 0 s.rxbuf
  · obtain ⟨h1, hifg⟩ := hrec (.recvbuf count) s1 rfl hiss
    obtain rfl := hiss.eq
    have hlt : 1 < count.toNat := by bv_omega
    obtain ⟨hall, ⟨t, hreach, hh, ht⟩, -⟩ := h1.hangs (by rw [hifg]; exact hlt)
    have hidx : t.idx = 1 := by
      have := ht.idx_of_hung hh
      rw [hifg] at this
      bv_omega
    refine ⟨fun t ht => (hall t ht).2, t, hreach, hh, hidx, ?_⟩
    rw [(ht.stored (by simp [hidx])).2]
    exact Memory.read_write_self hwf 0 s.rxbuf

end Sys2Proof.Machine
end

section
/-! PROOFS. What a send leaves when it returns (43_transfer_send.md R105, R106): an invariant of the view that lists the
bytes written, exchanged and in flight. -/

namespace Sys2Proof.Machine

/-- An invariant of the view holds at every point of a run without the host. -/
theorem Reaches.preserves_view {P : State → Prop} (hstep : ∀ v w, P v → ViewCase v w → P w) {s t : State}
    (h : Reaches s t) (he : s.ExchangeInv) (hs : P s.view) : t.ExchangeInv ∧ P t.view :=
  h.preserves (P := fun s => s.ExchangeInv ∧ P s.view)
    (fun _ u _ ha ⟨he, hu⟩ h => ⟨agentStep_keeps_exchangeInv h he.advance,
      hstep u.view _ hu (agentStep_viewCase (s := u.advance) (.inl ha) h he.advance)⟩) ⟨he, hs⟩

/-! ## Delivery is left on -/

/-- Once a byte has been written beyond the log `l`, delivery is on outside `armAndWait`. -/
def State.DeliversAfter (l : List Byte) (s : State) : Prop := s.ph.inWait = false → s.txlog ≠ l → s.gie = true

theorem SeqCase.deliversAfter {l : List Byte} {s t : State} (h : SeqCase s t) (ha : s.ArmInv) (hs : s.DeliversAfter l) :
    t.DeliversAfter l := by
  intro hout hlog
  cases hin : s.ph.inWait with
  | false =>
    rw [(h.sync_eq hin).2.2.1]
    refine hs hin fun heq => hlog ?_
    have htx : t.txlog = s.txlog := by cases h <;> simp_all [Phase.inWait]
    exact htx.trans heq
  | true =>
    have hp : s.ph = .aw5 := by cases h <;> simp_all [Phase.inWait]
    have hg := ha.delivering hp
    cases h <;> simp_all

/-- Every wait leaves delivery on, so a transfer that has written a byte returns with delivery on. -/
theorem Reaches.deliversAfter {l : List Byte} {s t : State} (h : Reaches s t) (ha : s.ArmInv) (hs : s.DeliversAfter l) :
    t.DeliversAfter l := by
  refine (h.preserves (P := fun s => s.ArmInv ∧ s.DeliversAfter l) (fun a u v hne ⟨ha, hu⟩ h => ?_) ⟨ha, hs⟩).2
  refine ⟨agentStep_keeps_armInv h ha.advance, ?_⟩
  have hu' : u.advance.DeliversAfter l := hu
  cases agentStep_runCase (s := u.advance) (.inl hne) h with
  | seq h => exact h.deliversAfter ha.advance hu'
  | _ => exact hu'

/-! ## The bytes of a send -/

/-- The byte a send takes at loop position `i`. -/
def State.sendByteAt (s : State) (i : Nat) : Byte := if s.opc = 3 then s.adr else Memory.read s.buf i

/-- How many bytes a send has written: those before the loop position, and the one at it when it waits to advance. -/
def State.bytesSent (v : State) : Nat := v.idx.toNat + if v.ph = .sbNext then 1 else 0

theorem State.eq_sendByteAt_of_operand {s : State} {b : Byte} (h : s.sendOperand = .ok b) :
    b = s.sendByteAt s.idx.toNat := by
  obtain ⟨ho, he⟩ | ⟨ho, -, he⟩ | ⟨-, -, he⟩ := s.sendOperand_cases
  · rw [h] at he; cases he; rw [State.sendByteAt, if_pos ho]
  · rw [h] at he; cases he; rw [State.sendByteAt, if_neg ho]
  · rw [h] at he; cases he

/-- A send that started in `s₀`, as its view shows it; `got` lists the exchanges since. -/
structure SendView (s₀ : State) (got : List (Byte × Byte)) (v : State) : Prop where
  ph : v.ph = .sbLoop ∨ v.ph = .sbNext ∨ v.ph = .sbPoll ∨ v.ph = .idle
  opc : v.opc = s₀.opc
  adr : v.adr = s₀.adr
  cnt : v.cnt = s₀.cnt
  buf : v.buf = s₀.buf
  traffic : Traffic s₀ ((List.range v.bytesSent).map s₀.sendByteAt) got v
  last : ∀ x, got.getLast? = some x → v.rxbuf = x.2
  raised : got ≠ [] → v.ifgRxf = true
  le : v.idx ≤ v.cnt
  more : v.ph = .sbNext → v.idx < v.cnt
  done : v.ph = .sbPoll ∨ v.ph = .idle → v.cnt ≤ v.idx
  rest : v.ph = .idle → v.busy = false ∧ v.txfull = false

/-- Every step of the view keeps it. -/
theorem SendView.step {s₀ v w : State} {got : List (Byte × Byte)} (h : SendView s₀ got v) (hc : ViewCase v w) :
    ∃ got', SendView s₀ got' w := by
  have hph := h.ph
  cases hc
  case stay => exact ⟨got, h⟩
  case load hen hfull hbusy =>
    exact ⟨got, { h with traffic := h.traffic.load hfull hbusy, rest := fun hp => by simp [h.rest hp] at hfull }⟩
  case complete m hen hbusy =>
    exact ⟨got ++ [(v.shreg, m)],
      { h with traffic := h.traffic.complete m hbusy, last := by simp, raised := fun _ => rfl,
               rest := fun hp => by simp [h.rest hp] at hbusy }⟩
  case txe hw hk hifg => exact ⟨got, { h with traffic := h.traffic.of_same ⟨rfl, rfl, rfl⟩ rfl rfl rfl }⟩
  case rxf hk hifg => obtain hp | hp | hp | hp := hph <;> simp [hp, Phase.continues] at hk
  case sbWrite b hw hp hlt hb hfull =>
    have htr := h.traffic.txWrite b hfull
    have hb' : b = s₀.sendByteAt v.idx.toNat := by
      rw [State.eq_sendByteAt_of_operand hb, State.sendByteAt, State.sendByteAt, h.opc, h.adr, h.buf]
    have hsent : (List.range v.bytesSent).map s₀.sendByteAt ++ [b] =
        (List.range (v.idx.toNat + 1)).map s₀.sendByteAt := by
      simp [State.bytesSent, hp, hb', List.range_succ]
    rw [hsent] at htr
    exact ⟨got, { h with ph := .inr (.inl rfl), traffic := htr.of_same ⟨rfl, rfl, rfl⟩ rfl rfl rfl, more := fun _ => hlt,
                         done := fun hp => by simp at hp, rest := fun hp => by simp at hp }⟩
  case sbDone hw hp hge =>
    have hsent : v.bytesSent = v.idx.toNat := by simp [State.bytesSent, hp]
    have htr := hsent ▸ h.traffic
    exact ⟨got, { h with ph := .inr (.inr (.inl rfl)), traffic := htr.of_same ⟨rfl, rfl, rfl⟩ rfl rfl rfl,
                         more := fun hp => by simp at hp, done := fun _ => hge, rest := fun hp => by simp at hp }⟩
  case sbNext hw hp =>
    have hlt := h.more hp
    have hsent : v.bytesSent = (v.idx + 1).toNat := by simp only [State.bytesSent, hp, if_true, toNat_succ_of_lt hlt]
    have htr := hsent ▸ h.traffic
    exact ⟨got, { h with ph := .inl rfl, traffic := htr.of_same ⟨rfl, rfl, rfl⟩ rfl rfl rfl, le := succ_le_of_lt hlt,
                         more := fun hp => by simp at hp, done := fun hp => by simp at hp,
                         rest := fun hp => by simp at hp }⟩
  case sbReturn hw hp hbusy hfull =>
    have hsent : v.bytesSent = v.idx.toNat := by simp [State.bytesSent, hp]
    have htr := hsent ▸ h.traffic
    exact ⟨got, { h with ph := .inr (.inr (.inr rfl)), traffic := htr.of_same ⟨rfl, rfl, rfl⟩ rfl rfl rfl,
                         more := fun hp => by simp at hp, done := fun _ => h.done (.inl hp),
                         rest := fun _ => ⟨hbusy, hfull⟩ }⟩
  case rrDly1 hp | rrDly2 hp => obtain hp | hp := hp <;> simp [hp] at hph
  all_goals simp_all

/-- A send just issued. -/
theorem SendView.of_issue {i : Instr} {s : State} (hs : s.sendReady) (hp : (issue i s).ph = .sbLoop) :
    SendView (issue i s) [] (issue i s).view := by
  rw [State.view_of_outside (by simp)]
  exact ⟨.inl hp, rfl, rfl, rfl, rfl,
    ⟨by simp [State.bytesSent, hp], by simp, by simp [State.bytesSent, State.inFlight, hp, hs.busy, hs.txfull]⟩,
    by simp, by simp, BitVec.le_def.mpr (by simp), fun h => by simp [hp] at h, fun h => by simp [hp] at h,
    fun h => by simp [hp] at h⟩

/-- When a send returns, every byte has been written and exchanged. -/
theorem SendView.of_returnsIn {i : Instr} {s t : State} (hs : s.sendReady) (hp : (issue i s).ph = .sbLoop)
    (ht : ReturnsIn (issue i s) t) : t.ExchangeInv ∧ t.idx = t.cnt ∧ t.busy = false ∧
      ∃ got, SendView (issue i s) got t.view ∧
        got.map Prod.fst = (List.range (issue i s).cnt.toNat).map (issue i s).sendByteAt ∧
        t.txlog = s.txlog ++ got.map Prod.fst ∧ t.wire = s.wire ++ got := by
  obtain ⟨hreach, hidle⟩ := ht
  obtain ⟨he, got, hv⟩ := hreach.preserves_view (P := fun v => ∃ got, SendView (issue i s) got v)
    (fun v w ⟨got, hv⟩ hc => hv.step hc) (hs.exchangeInv_issue i) ⟨[], .of_issue hs hp⟩
  have hvp : t.view.ph = .idle := by
    rw [State.view_of_outside (by simp [hidle, Phase.inWait])]
    exact hidle
  obtain ⟨hbusy, hfull⟩ := hv.rest hvp
  have hidx : t.view.idx = t.view.cnt := BitVec.le_antisymm hv.le (hv.done (.inr hvp))
  have hsent := hv.traffic.exchanged hfull hbusy
  have hbytes : t.view.bytesSent = (issue i s).cnt.toNat := by simp [State.bytesSent, hvp, hidx, hv.cnt]
  refine ⟨he, hidx, hbusy, got, hv, by rw [hsent, hbytes], ?_, hv.traffic.wire.trans (by simp)⟩
  rw [hsent]
  exact hv.traffic.txlog.trans (by simp)

/-- Settles O28: what has been written is what has been exchanged, byte by byte of the buffer. -/
theorem sendBufferTransmitsInOrder : Obligations.SendBufferTransmitsInOrder := by
  intro s s1 t count hs hiss ht
  obtain rfl := hiss.eq
  obtain ⟨-, -, -, got, hv, hsent, hlog, hwire⟩ := SendView.of_returnsIn hs rfl ht
  have hbytes : got.map Prod.fst = s.bufBytes count.toNat := hsent
  refine ⟨by rw [hlog, hbytes], ⟨got.map Prod.snd, ?_, ?_⟩, hv.buf⟩
  · simpa [State.bufBytes] using congrArg List.length hbytes
  · rw [hwire, ← hbytes, List.zip_map']
    simp

/-- Settles O29: the exchange of the last byte has raised receive-full, and nothing takes it. -/
theorem sendLeavesReceiveFullPending : Obligations.SendLeavesReceiveFullPending := by
  intro s s1 t i hs hi hiss ht
  obtain rfl := hiss.eq
  obtain ⟨hp, hcnt⟩ : (issue i s).ph = .sbLoop ∧ 1 ≤ (issue i s).cnt := by
    obtain ⟨byte, rfl⟩ | ⟨count, rfl, hc⟩ := hi
    · exact ⟨rfl, BitVec.le_refl _⟩
    · exact ⟨rfl, hc⟩
  obtain ⟨he, hidx, hbusy, got, hv, hsent, hlog, hwire⟩ := SendView.of_returnsIn hs.tosendReady hp ht
  obtain ⟨htxe, hrxf, hw, hifg, hfull⟩ := (exchangeInvariantWhenIdle t ht.2).mp he
  have hgot : got ≠ [] := by
    rintro rfl
    have := congrArg List.length hsent
    simp only [List.map_nil, List.length_nil, List.length_map, List.length_range] at this
    bv_omega
  have hgie := ht.1.deliversAfter (l := s.txlog) (hs.exchangeInv_issue i).toArmInv (fun _ h => absurd (by simp) h)
    (by simp [ht.2, Phase.inWait]) (by simpa [hlog] using hgot)
  refine ⟨htxe, hrxf, hgie, hw, hifg, hfull, hbusy, hidx, ⟨got.getLast hgot, ?_, ?_⟩, hv.raised hgot⟩
  · rw [hwire, List.getLast?_append_of_ne_nil _ hgot, List.getLast?_eq_some_getLast hgot]
  · exact hv.last _ (List.getLast?_eq_some_getLast hgot)

end Sys2Proof.Machine
end

section
/-! PROOFS. The register read (45_register_read.md R127 to R129): an invariant of the view that counts the receive-full
flags consumed against the exchanges, which says from which exchange each stored byte is. -/

namespace Sys2Proof.Machine

/-- What a register read has written: the address, then a dummy byte for each loop position up to the current one. -/
def State.registerSent (v : State) : List Byte :=
  if v.ph = .rrAddr then []
  else v.adr :: List.replicate (v.idx.toNat + if v.ph.insideLoop then 1 else 0) dummyByte

/-- How many receive-full flags it has consumed: one for the garbage byte and one for each byte stored, from the end of
the wait on. -/
def State.registerFlags (v : State) : Nat :=
  match v.ph with
  | .rrAddr => 0
  | .rrDisc => if v.wait then 0 else 1
  | .rrStore => v.idx.toNat + if v.wait then 1 else 2
  | .rrSet2 | .rrDly2 => v.idx.toNat + 2
  | _ => v.idx.toNat + 1

/-- How many bytes it has stored. -/
def State.registerStored (v : State) : Nat := v.idx.toNat + if v.ph = .rrSet2 ∨ v.ph = .rrDly2 then 1 else 0

/-- Where the byte of index `i` is stored. -/
def State.storedByte (v : State) (i : Nat) : Byte := if v.opc = 7 then v.res else Memory.read v.buf i

/-- The byte `b` was shifted in by exchange `i + 1`, the garbage byte's being exchange 0; or by the one before, which
takes a stale flag. -/
def IntendedOrPrevious (stale : Bool) (got : List (Byte × Byte)) (i : Nat) (b : Byte) : Prop :=
  (got.map Prod.snd)[i + 1]? = some b ∨ stale = true ∧ (got.map Prod.snd)[i]? = some b

theorem IntendedOrPrevious.append {stale : Bool} {got : List (Byte × Byte)} {i : Nat} {b : Byte}
    (h : IntendedOrPrevious stale got i b) (x : Byte × Byte) : IntendedOrPrevious stale (got ++ [x]) i b := by
  have hkeep : ∀ j, (got.map Prod.snd)[j]? = some b → ((got ++ [x]).map Prod.snd)[j]? = some b := fun j hj => by
    rw [List.map_append, List.getElem?_append_left (List.getElem?_eq_some_iff.mp hj).1, hj]
  exact h.imp (hkeep _) (And.imp_right (hkeep _))

/-- Where a register read can stand. -/
structure RegisterPlace (v : State) : Prop where
  ph : v.ph = .idle ∨ v.ph.byteForm = 7
  first : v.ph = .rrAddr ∨ v.ph = .rrDisc ∨ v.ph = .rrSet1 ∨ v.ph = .rrDly1 → v.idx = 0
  le : v.idx ≤ v.cnt
  more : v.ph.insideLoop = true → v.idx < v.cnt
  done : v.ph = .idle → v.cnt ≤ v.idx

/-- A register read that started in `s₀`, as its view shows it; `got` lists the exchanges since. -/
structure RegisterView (s₀ : State) (got : List (Byte × Byte)) (v : State) : Prop where
  place : RegisterPlace v
  latches : v.opc = s₀.opc ∧ v.cnt = s₀.cnt ∧ v.adr = s₀.adr
  traffic : Traffic s₀ v.registerSent got v
  last : ∀ x, got.getLast? = some x → v.rxbuf = x.2
  flags : v.registerFlags + v.ifgRxf.toNat ≤ got.length + s₀.ifgRxf.toNat
  stored : ∀ i < v.registerStored, IntendedOrPrevious s₀.ifgRxf got i (v.storedByte i)
  wf : Memory.wf s₀.buf = true → Memory.wf v.buf = true
  beyond : ∀ a, v.cnt.toNat ≤ a → Memory.read v.buf a = Memory.read s₀.buf a
  buf : v.opc = 7 → v.buf = s₀.buf
  res : v.opc ≠ 7 → v.res = s₀.res

/-- Every step of the view keeps the place. -/
theorem RegisterPlace.step {v w : State} (h : RegisterPlace v) (hc : ViewCase v w) : RegisterPlace w := by
  obtain ⟨hph, hfirst, hle, hmore, hdone⟩ := h
  cases hc
  case stay | load | complete | txe | rxf => exact ⟨hph, hfirst, hle, hmore, hdone⟩
  case rrAddr hp _ => exact ⟨.inr rfl, fun _ => hfirst (.inl hp), hle, nofun, nofun⟩
  case rrDisc hp => exact ⟨.inr rfl, fun _ => hfirst (.inr (.inl hp)), hle, nofun, nofun⟩
  case rrDly1 hp => exact ⟨.inr rfl, fun _ => hfirst (.inr (.inr hp)), hle, nofun, nofun⟩
  case rrDly1Done => exact ⟨.inr rfl, by simp, hle, nofun, nofun⟩
  case rrWrite hlt _ => exact ⟨.inr rfl, by simp, hle, fun _ => hlt, nofun⟩
  case rrReturn hge => exact ⟨.inl rfl, by simp, hle, nofun, fun _ => hge⟩
  case rrStoreRes hp _ | rrStoreBuf hp _ =>
    exact ⟨.inr rfl, by simp, hle, fun _ => hmore (by simp [hp, Phase.insideLoop]), nofun⟩
  case rrDly2 hp =>
    exact ⟨.inr rfl, by simp, hle, fun _ => hmore (by obtain hp | hp := hp <;> simp [hp, Phase.insideLoop]), nofun⟩
  case rrDly2Done hp => exact ⟨.inr rfl, by simp, succ_le_of_lt (hmore (by simp [hp, Phase.insideLoop])), nofun, nofun⟩
  all_goals simp_all [Phase.byteForm]

/-- A step that stores nothing: what it has to keep is the accounting. -/
theorem RegisterView.of_same {s₀ v w : State} {got : List (Byte × Byte)} (h : RegisterView s₀ got v)
    (hplace : RegisterPlace w) (hlatches : w.opc = v.opc ∧ w.cnt = v.cnt ∧ w.adr = v.adr)
    (hkept : w.rxbuf = v.rxbuf ∧ w.buf = v.buf ∧ w.res = v.res) (htraffic : Traffic s₀ w.registerSent got w)
    (hflags : w.registerFlags + w.ifgRxf.toNat ≤ v.registerFlags + v.ifgRxf.toNat)
    (hstored : w.registerStored ≤ v.registerStored) : RegisterView s₀ got w := by
  obtain ⟨hopc, hcnt, hadr⟩ := hlatches
  obtain ⟨hrxbuf, hbuf, hres⟩ := hkept
  have hbyte : w.storedByte = v.storedByte := by funext i; rw [State.storedByte, State.storedByte, hopc, hbuf, hres]
  constructor
  case place => exact hplace
  case latches => rw [hopc, hcnt, hadr]; exact h.latches
  case traffic => exact htraffic
  case last => rw [hrxbuf]; exact h.last
  case flags => exact hflags.trans h.flags
  case stored => rw [hbyte]; exact fun i hi => h.stored i (hi.trans_le hstored)
  case wf => rw [hbuf]; exact h.wf
  case beyond => rw [hbuf, hcnt]; exact h.beyond
  case buf => rw [hbuf, hopc]; exact h.buf
  case res => rw [hres, hopc]; exact h.res

/-- A step that moves on: it may change PH, WAIT, IDX, DLY and the pending flags. -/
theorem RegisterView.of_move {s₀ v w : State} {got : List (Byte × Byte)} (h : RegisterView s₀ got v)
    (hw : w = { v with ph := w.ph, wait := w.wait, idx := w.idx, dly := w.dly, ifgTxe := w.ifgTxe, ifgRxf := w.ifgRxf })
    (hplace : RegisterPlace w) (hsent : w.registerSent = v.registerSent)
    (hflags : w.registerFlags + w.ifgRxf.toNat ≤ v.registerFlags + v.ifgRxf.toNat)
    (hstored : w.registerStored ≤ v.registerStored) : RegisterView s₀ got w := by
  refine h.of_same hplace ?_ ?_ ?_ hflags hstored
  · exact ⟨(congrArg State.opc hw :), (congrArg State.cnt hw :), (congrArg State.adr hw :)⟩
  · exact ⟨(congrArg State.rxbuf hw :), (congrArg State.buf hw :), (congrArg State.res hw :)⟩
  · rw [hsent]
    exact h.traffic.of_same ⟨(congrArg State.txbuf hw :), (congrArg State.txfull hw :), (congrArg State.txlog hw :)⟩
      (congrArg State.busy hw :) (congrArg State.shreg hw :) (congrArg State.wire hw :)

/-- At a store RXBUF holds the intended byte or the one before. -/
theorem RegisterView.rxbuf {s₀ v : State} {got : List (Byte × Byte)} (h : RegisterView s₀ got v) (hw : v.wait = false)
    (hp : v.ph = .rrStore) : IntendedOrPrevious s₀.ifgRxf got v.idx.toNat v.rxbuf := by
  have hflags := h.flags
  have hle := h.traffic.length_le
  have hstale := Bool.toNat_le s₀.ifgRxf
  simp only [State.registerFlags, hp, hw, Bool.false_eq_true, if_false] at hflags
  simp only [State.registerSent, hp, Phase.insideLoop, reduceCtorEq, if_false, if_true, List.length_cons,
    List.length_replicate] at hle
  have hne : got ≠ [] := by
    rintro rfl
    simp only [List.length_nil] at hflags
    omega
  have hlast : (got.map Prod.snd)[got.length - 1]? = some v.rxbuf := by
    rw [h.last _ (List.getLast?_eq_some_getLast hne), List.getLast_eq_getElem, List.getElem?_map,
      List.getElem?_eq_getElem (by have := List.length_pos_of_ne_nil hne; omega)]
    rfl
  obtain hlen | hlen : got.length = v.idx.toNat + 2 ∨ got.length = v.idx.toNat + 1 := by omega
  · exact .inl (by rw [hlen] at hlast; exact hlast)
  · refine .inr ⟨Bool.toNat_eq_one.mp (by omega), ?_⟩
    rw [hlen] at hlast
    exact hlast

/-- Every step of the view keeps it. -/
theorem RegisterView.step {s₀ v w : State} {got : List (Byte × Byte)} (hone : s₀.opc = 7 → s₀.cnt = 1)
    (hwf : s₀.opc ≠ 7 → Memory.wf s₀.buf = true) (h : RegisterView s₀ got v) (hc : ViewCase v w) :
    ∃ got', RegisterView s₀ got' w := by
  have hplace := h.place.step hc
  have hph := h.place.ph
  cases hc
  case stay => exact ⟨got, h⟩
  case load hen hfull hbusy => exact ⟨got, { h with place := hplace, traffic := h.traffic.load hfull hbusy }⟩
  case complete m hen hbusy =>
    have hflags := h.flags
    have hflags' : (v.complete m).registerFlags = v.registerFlags := rfl
    exact ⟨got ++ [(v.shreg, m)],
      { h with
        place := hplace
        traffic := h.traffic.complete m hbusy
        last := by simp
        flags := by simp [hflags']; omega
        stored := fun i hi => (h.stored i hi).append _ }⟩
  case txe hw hk hifg =>
    have hp : v.ph = .rrSet1 ∨ v.ph = .rrSet2 := by
      obtain hp | hp := hph <;> cases hp' : v.ph <;> simp_all [Phase.byteForm, Phase.continues]
    refine ⟨got, h.of_move rfl hplace rfl ?_ le_rfl⟩
    obtain hp | hp := hp <;> simp [State.registerFlags, hp]
  case rxf hk hifg =>
    have hp : v.ph = .rrDisc ∨ v.ph = .rrStore := by
      obtain hp | hp := hph <;> cases hp' : v.ph <;> simp_all [Phase.byteForm, Phase.continues]
    refine ⟨got, h.of_move rfl hplace rfl ?_ le_rfl⟩
    obtain hp | hp := hp <;> simp only [State.registerFlags, hp, hifg] <;> cases v.wait <;> simp
  case rrAddr hw hp hfull =>
    have hidx := h.place.first (.inl hp)
    have htr := h.traffic.txWrite v.adr hfull
    refine ⟨got, h.of_same hplace ⟨rfl, rfl, rfl⟩ ⟨rfl, rfl, rfl⟩ ?_ ?_ ?_⟩
    · have hsent : v.registerSent ++ [v.adr] = [v.adr] := by simp [State.registerSent, hp]
      rw [hsent] at htr
      have hsent' : State.registerSent { v.txWrite v.adr with ph := .rrDisc, wait := true } = [v.adr] := by
        simp [State.registerSent, Phase.insideLoop, hidx]
      rw [hsent']
      exact htr.of_same ⟨rfl, rfl, rfl⟩ rfl rfl rfl
    · simp [State.registerFlags, hp]
    · simp [State.registerStored, hp]
  case rrDisc hw hp =>
    have hidx := h.place.first (.inr (.inl hp))
    refine ⟨got, h.of_move rfl hplace ?_ ?_ ?_⟩
    · simp [State.registerSent, hp, Phase.insideLoop]
    · simp [State.registerFlags, hp, hw, hidx]
    · simp [State.registerStored, hp]
  case rrDly1 n hw hp =>
    refine ⟨got, h.of_move rfl hplace ?_ ?_ ?_⟩ <;>
      obtain hp | hp := hp <;> simp [State.registerSent, State.registerFlags, State.registerStored, hp, Phase.insideLoop]
  case rrDly1Done hw hp =>
    refine ⟨got, h.of_move rfl hplace ?_ ?_ ?_⟩ <;>
      simp [State.registerSent, State.registerFlags, State.registerStored, hp, Phase.insideLoop]
  case rrWrite hw hp hlt hfull =>
    have htr := h.traffic.txWrite dummyByte hfull
    refine ⟨got, h.of_same hplace ⟨rfl, rfl, rfl⟩ ⟨rfl, rfl, rfl⟩ ?_ ?_ ?_⟩
    · have hsent : v.registerSent ++ [dummyByte] =
          State.registerSent { v.txWrite dummyByte with ph := .rrStore, wait := true } := by
        simp [State.registerSent, Phase.insideLoop, hp, List.replicate_succ']
      rw [hsent] at htr
      exact htr.of_same ⟨rfl, rfl, rfl⟩ rfl rfl rfl
    · simp [State.registerFlags, hp]
    · simp [State.registerStored, hp]
  case rrReturn hw hp hge =>
    refine ⟨got, h.of_move rfl hplace ?_ ?_ ?_⟩ <;>
      simp [State.registerSent, State.registerFlags, State.registerStored, hp, Phase.insideLoop]
  case rrStoreRes hw hp ho =>
    have hidx : v.idx = 0 := by
      have hlt := h.place.more (by simp [hp, Phase.insideLoop])
      obtain ⟨hopc, hcnt, -⟩ := h.latches
      rw [hcnt, hone (hopc ▸ ho)] at hlt
      bv_omega
    have hsent : State.registerSent { v with res := v.rxbuf, ph := .rrSet2, wait := true } = v.registerSent := by
      simp [State.registerSent, hp, Phase.insideLoop]
    refine ⟨got, { h with
      place := hplace
      traffic := hsent ▸ h.traffic.of_same ⟨rfl, rfl, rfl⟩ rfl rfl rfl
      flags := by simpa [State.registerFlags, hp, hw] using h.flags
      stored := fun i hi => ?_
      res := fun hne => absurd ho hne }⟩
    obtain rfl : i = v.idx.toNat := by
      simp only [State.registerStored, hidx] at hi
      simp at hi
      simp [hidx, hi]
    have hbyte : State.storedByte { v with res := v.rxbuf, ph := .rrSet2, wait := true } v.idx.toNat = v.rxbuf :=
      if_pos ho
    rw [hbyte]
    exact h.rxbuf hw hp
  case rrStoreBuf hw hp ho =>
    have hlt := h.place.more (by simp [hp, Phase.insideLoop])
    have hsent : State.registerSent
        { v with buf := Memory.write v.buf v.idx.toNat v.rxbuf, ph := .rrSet2, wait := true } = v.registerSent := by
      simp [State.registerSent, hp, Phase.insideLoop]
    refine ⟨got, { h with
      place := hplace
      traffic := hsent ▸ h.traffic.of_same ⟨rfl, rfl, rfl⟩ rfl rfl rfl
      flags := by simpa [State.registerFlags, hp, hw] using h.flags
      stored := fun i hi => ?_
      wf := fun hwf => Memory.write_wf (h.wf hwf) _ _
      beyond := fun a (ha : v.cnt.toNat ≤ a) => ?_
      buf := fun he => absurd he ho }⟩
    · have hbyte : ∀ j, State.storedByte
          { v with buf := Memory.write v.buf v.idx.toNat v.rxbuf, ph := .rrSet2, wait := true } j =
          Memory.read (Memory.write v.buf v.idx.toNat v.rxbuf) j := fun j => if_neg ho
      rw [hbyte]
      obtain rfl | hne := eq_or_ne i v.idx.toNat
      · rw [Memory.read_write_self (h.wf (hwf (h.latches.1 ▸ ho)))]
        exact h.rxbuf hw hp
      · have hold := h.stored i (by simp [State.registerStored, hp] at hi ⊢; omega)
        rw [Memory.read_write_of_ne _ _ hne]
        rwa [State.storedByte, if_neg ho] at hold
    · have hne : a ≠ v.idx.toNat := by have := BitVec.lt_def.mp hlt; omega
      rw [Memory.read_write_of_ne _ _ hne]
      exact h.beyond a ha
  case rrDly2 n hw hp =>
    refine ⟨got, h.of_move rfl hplace ?_ ?_ ?_⟩ <;>
      obtain hp | hp := hp <;> simp [State.registerSent, State.registerFlags, State.registerStored, hp, Phase.insideLoop]
  case rrDly2Done hw hp =>
    have hidx := toNat_succ_of_lt (h.place.more (by simp [hp, Phase.insideLoop]))
    refine ⟨got, h.of_move rfl hplace ?_ ?_ ?_⟩ <;>
      simp only [State.registerSent, State.registerFlags, State.registerStored, hp, Phase.insideLoop, hidx] <;> simp
  all_goals simp_all [Phase.byteForm]

/-- A register read just issued. -/
theorem RegisterView.of_issue {i : Instr} {s : State} (hs : s.sendReady) (hp : (issue i s).ph = .rrAddr) :
    RegisterView (issue i s) [] (issue i s).view := by
  rw [State.view_of_outside (by simp)]
  exact {
    place := ⟨.inr (by simp [hp, Phase.byteForm]), by simp, BitVec.le_def.mpr (by simp), by simp [hp, Phase.insideLoop],
      by simp [hp]⟩
    latches := ⟨rfl, rfl, rfl⟩
    traffic := ⟨by simp [State.registerSent, hp], by simp,
      by simp [State.registerSent, State.inFlight, hp, hs.busy, hs.txfull]⟩
    last := by simp
    flags := by simp [State.registerFlags, hp]
    stored := by simp [State.registerStored, hp]
    wf := id
    beyond := fun _ _ => rfl
    buf := fun _ => rfl
    res := fun _ => rfl }

/-- What holds when a register read returns. -/
theorem RegisterView.of_returnsIn {i : Instr} {s t : State} (hs : s.sendReady) (hp : (issue i s).ph = .rrAddr)
    (hone : i.opcode = 7 → (issue i s).cnt = 1) (hwf : i.opcode ≠ 7 → Memory.wf s.buf = true)
    (ht : ReturnsIn (issue i s) t) : t.ExchangeInv ∧ t.view.ph = .idle ∧ t.idx = (issue i s).cnt ∧
      t.txlog = s.txlog ++ (issue i s).adr :: List.replicate (issue i s).cnt.toNat 0 ∧
      ∃ got, RegisterView (issue i s) got t.view ∧ t.wire = s.wire ++ got := by
  obtain ⟨hreach, hidle⟩ := ht
  obtain ⟨he, got, hv⟩ := hreach.preserves_view (P := fun v => ∃ got, RegisterView (issue i s) got v)
    (fun v w ⟨got, hv⟩ hc => hv.step (by simpa using hone) (by simpa using hwf) hc) (hs.exchangeInv_issue i)
    ⟨[], .of_issue hs hp⟩
  have hvp : t.view.ph = .idle := by
    rw [State.view_of_outside (by simp [hidle, Phase.inWait])]
    exact hidle
  obtain ⟨-, hcnt, hadr⟩ := hv.latches
  have hidx : t.view.idx = (issue i s).cnt := hcnt ▸ BitVec.le_antisymm hv.place.le (hv.place.done hvp)
  refine ⟨he, hvp, hidx, ?_, got, hv, hv.traffic.wire.trans (by simp)⟩
  have hsent : t.view.registerSent = (issue i s).adr :: List.replicate (issue i s).cnt.toNat 0 := by
    simp [State.registerSent, hvp, hidx, hadr, Phase.insideLoop, dummyByte]
  exact hsent ▸ hv.traffic.txlog.trans (by simp)

/-- A list of exchanges that sent `a` and then zeros. -/
theorem exists_exchanges {a : Byte} {n : Nat} {got : List (Byte × Byte)}
    (h : got.map Prod.fst = a :: List.replicate n 0) :
    ∃ (garbage : Byte) (data : List Byte), data.length = n ∧ got = (a, garbage) :: data.map fun d => (0, d) := by
  obtain ⟨⟨b, garbage⟩, rest, rfl, rfl, hrest⟩ := List.map_eq_cons_iff.mp h
  refine ⟨garbage, rest.map Prod.snd, by simpa using congrArg List.length hrest, ?_⟩
  rw [List.map_map]
  congr 1
  refine (List.map_id rest).symm.trans (List.map_congr_left fun x hx => ?_)
  have hx1 : x.1 = 0 := List.eq_of_mem_replicate (hrest ▸ List.mem_map_of_mem hx)
  exact Prod.ext hx1 rfl

/-- From a clean state every flag has been raised by an exchange since, so at the return all bytes are exchanged, none
is left pending, and each byte stored is the intended one. -/
theorem RegisterView.of_clean {s₀ v : State} {got : List (Byte × Byte)} (h : RegisterView s₀ got v)
    (hs : s₀.ifgRxf = false) (hp : v.ph = .idle) (hidx : v.idx = s₀.cnt) (hfull : v.txfull = false) :
    v.busy = false ∧ v.ifgRxf = false ∧ ∃ (garbage : Byte) (data : List Byte), data.length = s₀.cnt.toNat ∧
      got = (s₀.adr, garbage) :: data.map (fun d => (0, d)) ∧
      (∀ i < s₀.cnt.toNat, data[i]? = some (v.storedByte i)) ∧ v.rxbuf = data.getLastD garbage := by
  have hflags := h.flags
  have hlen := congrArg List.length h.traffic.inFlight
  have hsent : v.registerSent = s₀.adr :: List.replicate s₀.cnt.toNat 0 := by
    simp [State.registerSent, hp, hidx, h.latches, Phase.insideLoop, dummyByte]
  simp only [State.registerFlags, hp, hidx, hs, Bool.toNat_false] at hflags
  simp only [hsent, List.length_cons, List.length_replicate, List.length_append, List.length_map] at hlen
  have hnone : v.inFlight = [] := List.length_eq_zero_iff.mp (by omega)
  have hbusy : v.busy = false := by
    cases hb : v.busy with
    | false => rfl
    | true => simp [State.inFlight, hb] at hnone
  obtain ⟨garbage, data, hdata, hgot⟩ := exists_exchanges ((h.traffic.exchanged hfull hbusy).trans hsent)
  have hin : got.map Prod.snd = garbage :: data := by rw [hgot]; simp
  refine ⟨hbusy, Bool.toNat_eq_zero.mp (by omega), garbage, data, hdata, hgot, fun i hi => ?_, ?_⟩
  · obtain h | ⟨hstale, -⟩ := h.stored i (by simpa [State.registerStored, hp, hidx] using hi)
    · rwa [hin] at h
    · simp [hs] at hstale
  · have hlast : (got.map Prod.snd).getLast? = some (data.getLastD garbage) := by
      rw [hin, List.getLast?_cons, List.getLastD_eq_getLast?]
    rw [List.getLast?_map] at hlast
    obtain ⟨x, hx, hx2⟩ := Option.map_eq_some_iff.mp hlast
    rw [h.last x hx, hx2]

/-- The clean state a register read leaves. -/
theorem State.ExchangeInv.clean {t : State} (h : t.ExchangeInv) (hp : t.ph = .idle) (hen : t.en = true)
    (hbusy : t.busy = false) (hifg : t.ifgRxf = false) : t.clean := by
  obtain ⟨htxe, hrxf, hw, hifgTxe, hfull⟩ := (exchangeInvariantWhenIdle t hp).mp h
  exact ⟨⟨⟨hp, hw, htxe, hrxf, hfull, hbusy⟩, hen, hifgTxe⟩, hifg⟩

/-- An enabled controller stays enabled. -/
theorem Reaches.en_of_en {s t : State} (h : Reaches s t) (hen : s.en = true) : t.en = true :=
  h.preserves (P := fun s => s.en = true)
    (fun _ u _ ha hu h => (agentStep_runCase (s := u.advance) (.inl ha) h).en_of_en hu) hen

theorem sarecv_opcode_ne (regaddr : Byte) (count : Count) : (Instr.sarecv regaddr count).opcode ≠ 7 := by
  simp [Instr.opcode]

/-- Settles O39: the accounting of the register read at its return, with no stale flag. -/
theorem registerReadFromClean : Obligations.RegisterReadFromClean := by
  intro s s1 t regaddr count hs hwf hiss ht
  obtain rfl := hiss.eq
  obtain ⟨he, hvp, hidx, hlog, got, hv, hwire⟩ :=
    RegisterView.of_returnsIn hs.tosendReady rfl (fun h => absurd h (sarecv_opcode_ne regaddr count)) (fun _ => hwf) ht
  have hfull := ((exchangeInvariantWhenIdle t ht.2).mp he).2.2.2.2
  obtain ⟨hbusy, hifg, garbage, data, hlen, rfl, hdata, hrxbuf⟩ := hv.of_clean hs.ifgRxf hvp hidx hfull
  have hopc : t.view.opc ≠ 7 := fun h => sarecv_opcode_ne regaddr count (hv.latches.1.symm.trans h)
  have hen := ht.1.en_of_en (by simp [hs.en])
  have hgie := ht.1.deliversAfter (l := s.txlog) (hs.exchangeInv_issue _).toArmInv (fun _ h => absurd (by simp) h)
    (by simp [ht.2, Phase.inWait]) (by simp [hlog])
  refine ⟨garbage, data, hlen, hlog, hwire, ?_, fun a ha => hv.beyond a (by rw [hv.latches.2.1]; exact ha),
    he.clean ht.2 hen hbusy hifg, hidx.trans hv.latches.2.1.symm, hrxbuf, hgie, hv.res hopc⟩
  refine List.ext_getElem? fun i => ?_
  by_cases hi : i < count.toNat
  · have hbyte : t.view.storedByte i = Memory.read t.buf i := if_neg hopc
    rw [hdata i hi, hbyte]
    simp [State.bufBytes, hi]
  · rw [List.getElem?_eq_none (by simpa [State.bufBytes] using hi), List.getElem?_eq_none (hlen ▸ Nat.not_lt.mp hi)]

/-- Settles O40: the same for the byte form, whose one byte goes to RES. -/
theorem registerReadByteFromClean : Obligations.RegisterReadByteFromClean := by
  intro s s1 t regaddr hs hiss ht
  obtain rfl := hiss.eq
  obtain ⟨he, hvp, hidx, hlog, got, hv, hwire⟩ :=
    RegisterView.of_returnsIn hs.tosendReady rfl (fun _ => rfl) (fun h => absurd rfl h) ht
  have hfull := ((exchangeInvariantWhenIdle t ht.2).mp he).2.2.2.2
  obtain ⟨hbusy, hifg, garbage, data, hlen, rfl, hdata, -⟩ := hv.of_clean hs.ifgRxf hvp hidx hfull
  obtain ⟨d, rfl⟩ := List.length_eq_one_iff.mp hlen
  have hres : some d = some (t.view.storedByte 0) := hdata 0 Nat.one_pos
  have hbyte : t.view.storedByte 0 = t.res := if_pos hv.latches.1
  refine ⟨garbage, d, hlog, hwire, ?_, hv.buf hv.latches.1, he.clean ht.2 (ht.1.en_of_en (by simp [hs.en])) hbusy hifg⟩
  rw [← hbyte]
  exact (Option.some.inj hres).symm

/-- The bytes shifted in since `s`. -/
theorem newBytesIn_of_wire {s t : State} {got : List (Byte × Byte)} (h : t.wire = s.wire ++ got) :
    newBytesIn s t = got.map Prod.snd := by
  simp [newBytesIn, h]

/-- Settles O41: with a stale flag each wait may be over one exchange early. -/
theorem staleFlagReadStoresIntendedOrPrevious : Obligations.StaleFlagReadStoresIntendedOrPrevious := by
  intro s s1 t regaddr hs hwf
  refine ⟨fun count hiss ht => ?_, fun hiss ht => ?_⟩
  · obtain rfl := hiss.eq
    obtain ⟨-, hvp, hidx, hlog, got, hv, hwire⟩ :=
      RegisterView.of_returnsIn hs.tosendReady rfl (fun h => absurd h (sarecv_opcode_ne regaddr count)) (fun _ => hwf) ht
    have hopc : t.view.opc ≠ 7 := fun h => sarecv_opcode_ne regaddr count (hv.latches.1.symm.trans h)
    refine ⟨hlog, fun i hi => ?_⟩
    have hbyte : t.view.storedByte i = Memory.read t.buf i := if_neg hopc
    have hidx' : t.view.idx = count := hidx
    rw [newBytesIn_of_wire hwire, ← hbyte]
    exact (hv.stored i (by simpa [State.registerStored, hvp, hidx'] using hi)).symm.imp_left And.right
  · obtain rfl := hiss.eq
    obtain ⟨-, hvp, hidx, -, got, hv, hwire⟩ :=
      RegisterView.of_returnsIn hs.tosendReady rfl (fun _ => rfl) (fun h => absurd rfl h) ht
    have hbyte : t.view.storedByte 0 = t.res := if_pos hv.latches.1
    have hidx' : t.view.idx = 1 := hidx
    rw [newBytesIn_of_wire hwire, ← hbyte]
    exact (hv.stored 0 (by simp [State.registerStored, hvp, hidx'])).symm.imp_left And.right

end Sys2Proof.Machine
end

section
/-! PROOFS. SENDBYTE beside SENDBUF 1 (43_transfer_send.md R104): a simulation, step by step, that changes the opcode latch
and ADR and nothing else. -/

namespace Sys2Proof.Machine

/-- The state of a SENDBYTE seen as one of a SENDBUF whose ADR is `a`. -/
def State.asSendbuf (a : Byte) (u : State) : State := { u with opc := 2, adr := a }

/-- A SENDBYTE in progress, or returned, whose byte also stands at the buffer's first index. -/
structure State.SendsFirstByte (u : State) : Prop where
  opc : u.opc = 3
  cnt : u.cnt = 1
  adr : u.adr = Memory.read u.buf 0
  bufcap : 0 < u.bufcap
  family : u.InFamily 3

theorem State.SendsFirstByte.advance {u : State} (h : u.SendsFirstByte) : u.advance.SendsFirstByte :=
  ⟨h.opc, h.cnt, h.adr, h.bufcap, h.family⟩

/-- A send leaves the buffer alone. -/
theorem RunCase.buf_eq_of_send {u t : State} (h : RunCase u t) (hf : u.InFamily 3) : t.buf = u.buf := by
  cases h with
  | seq h =>
    obtain hbuf | ⟨-, -, hp, -⟩ := h.buf_cases
    · exact hbuf
    · obtain ⟨hp, -⟩ | ⟨hp, -⟩ := hp <;>
        simpa [hp, Phase.byteForm] using hf.byteForm_eq (by simp [hp]) (by simp [hp, Phase.inWait])
  | _ => rfl

theorem RunCase.sendsFirstByte {u t : State} (h : RunCase u t) (hu : u.SendsFirstByte) : t.SendsFirstByte where
  opc := h.opc_eq.trans hu.opc
  cnt := h.cnt_eq.trans hu.cnt
  adr := by rw [h.adr_eq, h.buf_eq_of_send hu.family]; exact hu.adr
  bufcap := by rw [h.bufcap_eq]; exact hu.bufcap
  family := h.inFamily hu.family

/-- The byte of SENDBYTE is the operand of the SENDBUF too. -/
theorem State.SendsFirstByte.sendOperand {u : State} (hu : u.SendsFirstByte) (hlt : u.idx < u.cnt) (a : Byte) :
    (u.asSendbuf a).sendOperand = u.sendOperand := by
  have hidx : u.idx = 0 := by rw [hu.cnt] at hlt; bv_omega
  have hsendbuf : (u.asSendbuf a).sendOperand = .ok (Memory.read u.buf 0) := by
    obtain ⟨ho, -⟩ | ⟨-, -, he⟩ | ⟨-, hover, -⟩ := (u.asSendbuf a).sendOperand_cases
    · cases ho
    · rw [he]
      simp [State.asSendbuf, hidx]
    · simp [State.asSendbuf, hidx, Nat.ne_of_gt hu.bufcap] at hover
  rw [hsendbuf, ← hu.adr, State.sendOperand, if_pos hu.opc]

/-- The sequencer takes the same step on both. -/
theorem SeqCase.asSendbuf {u t : State} (h : SeqCase u t) (hu : u.SendsFirstByte) (a : Byte) :
    seqStep (u.asSendbuf a) = .next (t.asSendbuf a) := by
  have hfam := hu.family
  cases h
  case waiting hw => exact seqStep_of_wait hw
  case idle hw hp => simp [seqStep, State.asSendbuf, hw, hp]
  case aw1 hw hp => exact seqStep_of_aw1 hw hp
  case aw2 hw hp =>
    rw [seqStep_of_aw2 (s := u.asSendbuf a) hw hp]
    cases hk : u.evk <;> simp [State.aw2, State.setIe, State.asSendbuf, hk]
  case aw3 hw hp => exact seqStep_of_aw3 hw hp
  case aw5 hw hp =>
    rw [seqStep_of_aw5 (s := u.asSendbuf a) hw hp]
    cases hk : u.evk <;> simp [State.aw5, State.setIe, State.asSendbuf, hk]
  case sbWrite v hw hp hm hv =>
    have hlt := u.more_iff.mp hm
    rw [seqStep_of_sbLoop (s := u.asSendbuf a) hp hw]
    exact sbLoop_of_lt (s := u.asSendbuf a) hlt ((hu.sendOperand hlt a).trans hv)
  case sbDone hw hp hm =>
    rw [seqStep_of_sbLoop (s := u.asSendbuf a) hp hw]
    exact sbLoop_of_le (BitVec.not_lt.mp (mt u.more_iff.mpr (by simp [hm])))
  case sbNext hw hp => exact seqStep_of_sbNext hw hp
  case sbPollBusy hw hp hb =>
    rw [seqStep_of_sbPoll (s := u.asSendbuf a) hw hp, State.sbPoll_of_busy (s := u.asSendbuf a) hp hb, ← hp]
  case sbPollDone hw hp hb =>
    rw [seqStep_of_sbPoll (s := u.asSendbuf a) hw hp, State.sbPoll_of_not_busy (s := u.asSendbuf a) hb]
    rfl
  all_goals simp_all [State.InFamily, State.stage, Phase.inWait, Phase.byteForm]

/-- The shifter and the handler read neither the opcode latch nor ADR. -/
theorem shfStep_asSendbuf {u t : State} (h : shfStep u = .next t) (a : Byte) :
    shfStep (u.asSendbuf a) = .next (t.asSendbuf a) := by
  have hl' : (u.asSendbuf a).canLoad = u.canLoad := rfl
  have hc' : (u.asSendbuf a).canComplete = u.canComplete := rfl
  obtain ⟨hl, rfl⟩ | ⟨hl, hc, rfl⟩ | ⟨hl, hc, rfl⟩ := shfStep_cases h
  · rw [shfStep, hl', if_pos hl]
    rfl
  · rw [shfStep, hl', hc', if_neg (by simp [hl]), if_pos hc]
    rfl
  · rw [shfStep, hl', hc', if_neg (by simp [hl]), if_neg (by simp [hc])]

theorem irqStep_asSendbuf {u t : State} (h : irqStep u = .next t) (a : Byte) :
    irqStep (u.asSendbuf a) = .next (t.asSendbuf a) := by
  cases hg : u.gie with
  | false =>
    rw [irqStep_of_masked hg] at h
    cases h
    exact irqStep_of_masked hg
  | true =>
    rw [irqStep_of_gie hg] at h
    cases h
    rw [irqStep_of_gie (s := u.asSendbuf a) hg]
    obtain ⟨hr, he⟩ | ⟨hr, hx, he⟩ | ⟨hr, hx, he⟩ := u.takeInterrupt_cases <;> rw [he]
    · rw [State.takeInterrupt_of_rxf (s := u.asSendbuf a) hr]
      rfl
    · rw [State.takeInterrupt_of_txe (s := u.asSendbuf a) hr hx]
      rfl
    · rw [State.takeInterrupt_of_none (s := u.asSendbuf a) hr hx]

/-- Every step of a SENDBYTE without the host is one of the SENDBUF. -/
theorem State.SendsFirstByte.agentStep_asSendbuf {u t : State} {g : Agent} (hu : u.SendsFirstByte) (hg : g ≠ .host)
    (h : agentStep g u = .next t) (a : Byte) : agentStep g (u.asSendbuf a) = .next (t.asSendbuf a) := by
  obtain ⟨rfl, -⟩ | ⟨rfl, h'⟩ | ⟨rfl, h'⟩ | ⟨rfl, h'⟩ := agentStep_cases h
  · exact absurd rfl hg
  · exact h'.asSendbuf hu a
  · exact shfStep_asSendbuf h' a
  · exact irqStep_asSendbuf h' a

/-- So every run of a SENDBYTE is one of the SENDBUF. -/
theorem State.SendsFirstByte.runAgents_asSendbuf {order : List Agent} {u t : State} (hu : u.SendsFirstByte)
    (hhost : .host ∉ order) (h : runAgents order u = .next t) (a : Byte) :
    runAgents order (u.asSendbuf a) = .next (t.asSendbuf a) := by
  induction order generalizing u with
  | nil => cases h; rfl
  | cons g order ih =>
    obtain ⟨hg, hhost⟩ := not_or.mp (mt List.mem_cons.mpr hhost)
    simp only [runAgents] at h ⊢
    cases hstep : act g u with
    | next v =>
      rw [hstep] at h
      have hact : act g (u.asSendbuf a) = .next (v.asSendbuf a) := hu.advance.agentStep_asSendbuf (Ne.symm hg) hstep a
      rw [hact]
      exact ih ((agentStep_runCase (s := u.advance) (.inl (Ne.symm hg)) hstep).sendsFirstByte hu.advance) hhost h
    | fault f => rw [hstep] at h; cases h
    | refused r => rw [hstep] at h; cases h

/-- Settles O30: the two issued states differ in OPC and ADR only, and the simulation starts there. -/
theorem sendByteMatchesSendBufferOfOne : Obligations.SendByteMatchesSendBufferOfOne := by
  intro s s1 s2 b hcap hb h1 h2 order t hhost hrun
  obtain rfl := h1.eq
  obtain rfl := h2.eq
  have hstart : (issue (.sendbyte b) s).SendsFirstByte := ⟨rfl, rfl, hb.symm, hcap, .inr rfl⟩
  exact hstart.runAgents_asSendbuf hhost hrun s.adr

end Sys2Proof.Machine
end

section
/-! PROOFS. How an interleaving of the register read is built (45_register_read.md R129): step by step in the view, where a
wait whose flag is pending can be over at once, with or without an exchange before the sequencer goes on. -/

namespace Sys2Proof.Machine

/-- The exchange invariant holds at every point of a run without the host. -/
theorem Reaches.exchangeInv {s t : State} (h : Reaches s t) (he : s.ExchangeInv) : t.ExchangeInv :=
  h.preserves (P := State.ExchangeInv) (fun _ _ _ _ he h => agentStep_keeps_exchangeInv h he.advance) he

/-- From every state with the view `v` some run without the host leads to a view of which `P` holds. -/
def Leads (v : State) (P : State → Prop) : Prop :=
  ∀ s, s.ExchangeInv → s.view = v → ∃ t, Reaches s t ∧ P t.view

theorem Leads.trans {v : State} {P Q : State → Prop} (h : Leads v P) (h' : ∀ w, P w → Leads w Q) : Leads v Q := by
  intro s he hv
  obtain ⟨t, hst, ht⟩ := h s he hv
  obtain ⟨u, htu, hu⟩ := h' t.view ht t (hst.exchangeInv he) rfl
  exact ⟨u, hst.trans htu, hu⟩

theorem Leads.mono {v : State} {P Q : State → Prop} (h : Leads v P) (h' : ∀ w, P w → Q w) : Leads v Q := by
  intro s he hv
  obtain ⟨t, hst, ht⟩ := h s he hv
  exact ⟨t, hst, h' t.view ht⟩

/-- The same through one view. -/
theorem Leads.via {v w : State} {Q : State → Prop} (h : Leads v (· = w)) (h' : Leads w Q) : Leads v Q :=
  h.trans fun _ hw => hw ▸ h'

/-! ## The steps of the view -/

/-- The shifter exchanges a queued byte in two steps. -/
theorem leads_exchange {v : State} (hen : v.en = true) (hfull : v.txfull = true) (hbusy : v.busy = false) :
    Leads v fun w => ∃ m, w = v.load.complete m := by
  rintro s - rfl
  have hload : act .shf s = .next s.advance.load := by
    have hc : s.advance.canLoad = true := by
      simp only [State.canLoad, Bool.and_eq_true, Bool.not_eq_true']
      exact ⟨⟨hen, hfull⟩, hbusy⟩
    rw [act, agentStep, shfStep, if_pos hc]
  obtain ⟨m, hcomplete⟩ : ∃ m, act .shf s.advance.load = .next (s.advance.load.advance.complete m) := by
    have hl : s.advance.load.advance.canLoad = false := by simp [State.canLoad]
    have hc : s.advance.load.advance.canComplete = true := Bool.and_eq_true_iff.mpr ⟨hen, rfl⟩
    exact ⟨_, by rw [act, agentStep, shfStep, if_neg (by simp [hl]), if_pos hc]⟩
  exact ⟨_, (Reaches.step (a := .shf) (by decide) hload).trans (.step (a := .shf) (by decide) hcomplete), m, rfl⟩

theorem Reaches.seq {s t : State} (h : seqStep s.advance = .next t) : Reaches s t := .step (a := .seq) (by decide) h

/-- The sequencer goes on to phase AW5 and enters the wait state; the view stays. -/
def State.Waits (s : State) : Prop := ∃ t, Reaches s t ∧ t.view = s.view ∧ t.ph = .aw5 ∧ t.wait = true

theorem State.Waits.of_step {s t : State} (he : s.ExchangeInv) (hin : s.ph.inWait = true)
    (h : seqStep s.advance = .next t) (ht : t.Waits) : s.Waits := by
  obtain ⟨u, hreach, hview, hu⟩ := ht
  exact ⟨u, (Reaches.seq h).trans hreach, hview.trans ((seqStep_cases h).view_of_inWait he.advance.toArmInv hin), hu⟩

theorem State.ExchangeInv.waits_of_aw3 {s : State} (he : s.ExchangeInv) (hp : s.ph = .aw3) : s.Waits :=
  have hstep := seqStep_of_aw3 (s := s.advance) (he.wait_eq_false (by simp [hp])) hp
  ⟨_, .seq hstep, (seqStep_cases hstep).view_of_inWait he.advance.toArmInv (by simp [hp, Phase.inWait]), rfl, rfl⟩

theorem State.ExchangeInv.waits_of_aw2 {s : State} (he : s.ExchangeInv) (hp : s.ph = .aw2) : s.Waits := by
  have hstep := seqStep_of_aw2 (s := s.advance) (he.wait_eq_false (by simp [hp])) hp
  exact .of_step he (by simp [hp, Phase.inWait]) hstep (((Reaches.seq hstep).exchangeInv he).waits_of_aw3 rfl)

theorem State.ExchangeInv.waits_of_aw1 {s : State} (he : s.ExchangeInv) (hp : s.ph = .aw1) : s.Waits := by
  have hstep := seqStep_of_aw1 (s := s.advance) (he.wait_eq_false (by simp [hp])) hp
  exact .of_step he (by simp [hp, Phase.inWait]) hstep (((Reaches.seq hstep).exchangeInv he).waits_of_aw2 rfl)

theorem State.ExchangeInv.waits {s : State} (he : s.ExchangeInv) (hw : s.view.wait = true) : s.Waits := by
  have hin : s.ph.inWait = true ∧ s.released = false := by simpa [State.view, State.waitOver] using hw
  cases hp : s.ph with
  | aw1 => exact he.waits_of_aw1 hp
  | aw2 => exact he.waits_of_aw2 hp
  | aw3 => exact he.waits_of_aw3 hp
  | aw5 => exact ⟨s, .refl s, rfl, hp, by simpa [State.released_of_aw5 hp] using hin.2⟩
  | _ => simp [hp, Phase.inWait] at hin

/-- In a wait the source of the phase after it is armed, and no other. -/
theorem State.ExchangeInv.signaled_iff {s : State} {k : Event} (he : s.ExchangeInv) (hp : s.ph = .aw5)
    (hk : s.stage.continues k = true) (j : Event) : s.signaled j = true ↔ j = k ∧ s.ifg k = true := by
  have hin : s.ph.inWait = true := by simp [hp, Phase.inWait]
  have hret := he.returns hin
  rw [State.stage_of_inWait hin] at hk
  have hevk : s.evk = k := by
    cases hr : s.ret <;> cases hv : s.evk <;> cases k <;> simp_all [Phase.continues]
  have harm := he.armed j
  simp only [hp, or_true, and_true, hevk] at harm
  rw [State.signaled, Bool.and_eq_true, harm]
  constructor
  · rintro ⟨hifg, rfl⟩
    exact ⟨rfl, hifg⟩
  · rintro ⟨rfl, hifg⟩
    exact ⟨hifg, rfl⟩

/-- What the handler leaves when it takes the source `k`. -/
def State.release (k : Event) (s : State) : State :=
  match k with
  | .txe => { s with ifgTxe := false, wait := false }
  | .rxf => { s with ifgRxf := false, wait := false }

theorem State.takeInterrupt_eq_release {s : State} {k : Event} (h : ∀ j, s.signaled j = true ↔ j = k) :
    s.takeInterrupt = s.release k := by
  cases k with
  | txe => exact State.takeInterrupt_of_txe (by simpa using h .rxf) ((h .txe).mpr rfl)
  | rxf => exact State.takeInterrupt_of_rxf ((h .rxf).mpr rfl)

theorem State.view_release {s : State} (k : Event) (hp : s.ph = .aw5) : (s.release k).view = s.view.release k := by
  cases k with
  | txe => exact State.view_taken false s.ifgRxf hp
  | rxf => exact State.view_taken s.ifgTxe false hp

/-- A wait for a pending flag can be over at once: the handler takes it. -/
theorem leads_release {v : State} {k : Event} (hw : v.wait = true) (hk : v.ph.continues k = true) (hifg : v.ifg k = true) :
    Leads v (· = v.release k) := by
  rintro s he rfl
  obtain ⟨t, hst, hview, hp, htw⟩ := he.waits hw
  have hte := hst.exchangeInv he
  have hstage : t.stage = s.stage := congrArg State.ph hview
  have hpend : t.ifg k = true := by
    rw [← hifg]
    cases k
    · exact (congrArg State.ifgTxe hview :)
    · exact (congrArg State.ifgRxf hview :)
  have hsig : ∀ j, t.signaled j = true ↔ j = k := fun j => by
    rw [hte.signaled_iff hp (k := k) (by rw [hstage]; exact hk) j, hpend]
    simp
  have hirq : act .irq t = .next (t.advance.release k) := by
    rw [act, agentStep, irqStep_of_gie (s := t.advance) (hte.delivering hp),
      State.takeInterrupt_eq_release (s := t.advance) hsig]
  exact ⟨_, hst.trans (.step (a := .irq) (by decide) hirq), by
    rw [State.view_release (s := t.advance) k hp, State.view_advance, hview]⟩

/-- When the wait is over the sequencer leaves `armAndWait`. -/
theorem State.ExchangeInv.reaches_stage {s : State} (he : s.ExchangeInv) (hw : s.view.wait = false) :
    ∃ t, Reaches s t ∧ t.view = s.view ∧ t.ph = s.stage ∧ t.ph.inWait = false := by
  have hover : s.ph.inWait = false ∨ s.released = true := by
    cases hin : s.ph.inWait <;> simp_all [State.view, State.waitOver]
  obtain hout | hrel := hover
  · exact ⟨s, .refl s, rfl, (State.stage_of_outside hout).symm, hout⟩
  · have hp : s.ph = .aw5 ∧ s.wait = false := by simpa [State.released] using hrel
    have hin : s.ph.inWait = true := by simp [hp, Phase.inWait]
    have hstep := seqStep_of_aw5 (s := s.advance) hp.2 hp.1
    have hph : s.advance.aw5.ph = s.ret := by simp
    refine ⟨_, .seq hstep, (seqStep_cases hstep).view_of_inWait he.advance.toArmInv hin,
      hph.trans (State.stage_of_inWait hin).symm, ?_⟩
    rw [hph]
    exact Phase.inWait_eq_false_of_continues (he.returns hin)

/-- So a run of the sequencer from outside `armAndWait` is a run of the view. -/
theorem leads_of_outside {v : State} {P : State → Prop} (hw : v.wait = false)
    (h : ∀ s, s.view = v → s.ph = v.ph → s.wait = false → s.ph.inWait = false → ∃ t, Reaches s t ∧ P t.view) :
    Leads v P := by
  rintro s he rfl
  obtain ⟨t, hst, hview, hp, hout⟩ := he.reaches_stage hw
  have hte := hst.exchangeInv he
  obtain ⟨u, htu, hu⟩ := h t hview hp (hte.wait_eq_false fun hp => by simp [hp, Phase.inWait] at hout) hout
  exact ⟨u, hst.trans htu, hu⟩

/-- The view at stage `p`, before (`true`) or after (`false`) the end of the wait. -/
def State.atStage (p : Phase) (w : Bool) (v : State) : State := { v with ph := p, wait := w }

/-- The view when a settling delay is over and the loop position is `i`. -/
def State.settled (i : Count) (v : State) : State := { v with dly := 0, idx := i, ph := .rrLoop }

section
variable {v : State} (hw : v.wait = false)
include hw

/-! The phases of the register read (R121 to R126). -/

theorem leads_rrAddr (hp : v.ph = .rrAddr) : Leads v (· = (v.txWrite v.adr).atStage .rrDisc true) := by
  refine leads_of_outside hw ?_
  rintro s rfl hph hsw hout
  exact ⟨_, .seq (seqStep_of_rrAddr (s := s.advance) hsw (hph.trans hp)), rfl⟩

theorem leads_rrDisc (hp : v.ph = .rrDisc) : Leads v (· = v.atStage .rrSet1 true) := by
  refine leads_of_outside hw ?_
  rintro s rfl hph hsw hout
  exact ⟨_, .seq (seqStep_of_rrDisc (s := s.advance) hsw (hph.trans hp)), rfl⟩

theorem leads_rrSet1 (hp : v.ph = .rrSet1) : Leads v (· = v.settled v.idx) := by
  refine leads_of_outside hw ?_
  rintro s rfl hph hsw hout
  have hset := Reaches.seq (seqStep_of_rrSet1 (s := s.advance) hsw (hph.trans hp))
  obtain ⟨turn, tick, hdly⟩ := runAgents_rrDly1 Config.settleCycles (s.advance.rrSet1 Config.settleCycles) rfl hsw rfl
  refine ⟨_, hset.trans ⟨_, by simp, hdly⟩, ?_⟩
  rw [State.view_of_outside rfl, State.view_of_outside hout]
  rfl

theorem leads_rrWrite (hp : v.ph = .rrLoop) (hlt : v.idx < v.cnt) :
    Leads v (· = (v.txWrite dummyByte).atStage .rrStore true) := by
  refine leads_of_outside hw ?_
  rintro s rfl hph hsw hout
  have hstep := seqStep_of_rrLoop (s := s.advance) (hph.trans hp) hsw
  rw [State.rrLoop, if_pos (s.advance.more_iff.mpr hlt)] at hstep
  exact ⟨_, .seq hstep, rfl⟩

theorem leads_rrReturn (hp : v.ph = .rrLoop) (hge : v.cnt ≤ v.idx) : Leads v (· = { v with ph := .idle }) := by
  refine leads_of_outside hw ?_
  rintro s rfl hph hsw hout
  have hstep := seqStep_of_rrLoop (s := s.advance) (hph.trans hp) hsw
  rw [State.rrLoop, if_neg (mt s.advance.more_iff.mp (BitVec.not_lt.mpr hge))] at hstep
  refine ⟨_, .seq hstep, ?_⟩
  rw [State.view_of_outside rfl, State.view_of_outside hout]
  rfl

theorem leads_rrSet2 (hp : v.ph = .rrSet2) : Leads v (· = v.settled (v.idx + 1)) := by
  refine leads_of_outside hw ?_
  rintro s rfl hph hsw hout
  have hset := Reaches.seq (seqStep_of_rrSet2 (s := s.advance) hsw (hph.trans hp))
  obtain ⟨turn, tick, hdly⟩ := runAgents_rrDly2 Config.settleCycles (s.advance.rrSet2 Config.settleCycles) rfl hsw rfl
  refine ⟨_, hset.trans ⟨_, by simp, hdly⟩, ?_⟩
  rw [State.view_of_outside rfl, State.view_of_outside hout]
  rfl

end

/-- The byte `b` stored where a register read puts it (R125). -/
def State.storeByte (b : Byte) (v : State) : State :=
  { v with res := if v.opc = 7 then b else v.res, buf := if v.opc = 7 then v.buf else Memory.write v.buf v.idx.toNat b }

theorem leads_rrStore {v : State} (hw : v.wait = false) (hp : v.ph = .rrStore)
    (hcap : v.opc = 7 ∨ v.idx.toNat < v.bufcap) :
    Leads v (· = (v.storeByte v.rxbuf).atStage .rrSet2 true) := by
  refine leads_of_outside hw ?_
  rintro s rfl hph hsw hout
  have hstep := seqStep_of_rrStore (s := s.advance) (hph.trans hp) hsw
  obtain ⟨ho, he⟩ | ⟨ho, -, he⟩ | ⟨ho, hover, -⟩ := s.advance.storeReceived_cases 7 s.rxbuf
  · rw [rrStore_of_stored he] at hstep
    have ho' : s.view.opc = 7 := ho
    exact ⟨_, .seq hstep, by rw [State.storeByte, if_pos ho', if_pos ho']; rfl⟩
  · rw [rrStore_of_stored he] at hstep
    have ho' : ¬s.view.opc = 7 := ho
    exact ⟨_, .seq hstep, by rw [State.storeByte, if_neg ho', if_neg ho']; rfl⟩
  · exact absurd (hcap.resolve_left ho) (Nat.not_lt.mpr hover)

end Sys2Proof.Machine
end

section
/-! PROOFS. Every result of a register read issued with a stale receive-full flag is reached (45_register_read.md R129): in
each round the exchange completes before or after the byte is stored, and the flag it leaves serves the next round. -/

namespace Sys2Proof.Machine

/-- A wait of the register read can start a round: nothing is queued or in flight and a receive-full flag is pending. -/
structure State.RoundReady (v : State) : Prop where
  wait : v.wait = false
  en : v.en = true
  txfull : v.txfull = false
  busy : v.busy = false
  ifgRxf : v.ifgRxf = true

/-- The view after the exchange of the byte `b` for `m`, back at the head of the loop at position `i`. -/
def State.exchanged (b m : Byte) (i : Count) (v : State) : State :=
  { v with
    ifgTxe := false, ifgRxf := true, busy := false, txbuf := b, txfull := false, shreg := b, rxbuf := m,
    ph := .rrLoop, idx := i, dly := 0, wait := false, txlog := v.txlog ++ [b], wire := v.wire ++ [(b, m)] }

/-- The stale flag ends the first wait at once, the address is exchanged, and transmit-empty ends the second wait. After
each step the view is written as one record again. -/
theorem leads_address {v : State} (h : v.RoundReady) (hp : v.ph = .rrAddr) :
    Leads v fun w => ∃ m, w = v.exchanged v.adr m v.idx := by
  refine Leads.via (leads_rrAddr h.wait hp) ?_
  simp only [State.txWrite, State.atStage]
  refine Leads.via (leads_release (k := .rxf) rfl rfl h.ifgRxf) ?_
  simp only [State.release]
  refine Leads.trans (leads_exchange h.en rfl h.busy) ?_
  rintro _ ⟨m, rfl⟩
  simp only [State.load, State.complete]
  refine Leads.via (leads_rrDisc rfl rfl) ?_
  simp only [State.atStage]
  refine Leads.via (leads_release (k := .txe) rfl rfl rfl) ?_
  simp only [State.release]
  refine Leads.mono (leads_rrSet1 rfl rfl) ?_
  rintro _ rfl
  exact ⟨m, rfl⟩

/-- A round stores the byte before its exchange completes or after, and transmit-empty ends its second wait. -/
theorem leads_round {v : State} (h : v.RoundReady) (hp : v.ph = .rrLoop) (hlt : v.idx < v.cnt)
    (hcap : v.opc = 7 ∨ v.idx.toNat < v.bufcap) (intended : Bool) :
    Leads v fun w => ∃ m, w = (v.storeByte (bif intended then m else v.rxbuf)).exchanged dummyByte m (v.idx + 1) := by
  refine Leads.via (leads_rrWrite h.wait hp hlt) ?_
  simp only [State.txWrite, State.atStage]
  refine Leads.via (leads_release (k := .rxf) rfl rfl h.ifgRxf) ?_
  simp only [State.release]
  cases intended with
  | true =>
    refine Leads.trans (leads_exchange h.en rfl h.busy) ?_
    rintro _ ⟨m, rfl⟩
    simp only [State.load, State.complete]
    refine Leads.via (leads_rrStore rfl rfl hcap) ?_
    simp only [State.storeByte, State.atStage]
    refine Leads.via (leads_release (k := .txe) rfl rfl rfl) ?_
    simp only [State.release]
    refine Leads.mono (leads_rrSet2 rfl rfl) ?_
    rintro _ rfl
    exact ⟨m, rfl⟩
  | false =>
    refine Leads.via (leads_rrStore rfl rfl hcap) ?_
    simp only [State.storeByte, State.atStage]
    refine Leads.trans (leads_exchange h.en rfl h.busy) ?_
    rintro _ ⟨m, rfl⟩
    simp only [State.load, State.complete]
    refine Leads.via (leads_release (k := .txe) rfl rfl rfl) ?_
    simp only [State.release]
    refine Leads.mono (leads_rrSet2 rfl rfl) ?_
    rintro _ rfl
    exact ⟨m, rfl⟩

/-- Before round `n` of a register read that started in `s₀`: which exchange each byte stored so far is from. -/
structure RoundStart (s₀ : State) (intended : Nat → Bool) (n : Nat) (v : State) : Prop extends v.RoundReady where
  ph : v.ph = .rrLoop
  opc : v.opc = s₀.opc
  cnt : v.cnt = s₀.cnt
  bufcap : v.bufcap = s₀.bufcap
  idx : v.idx.toNat = n
  wf : s₀.opc ≠ 7 → Memory.wf v.buf = true
  wire : ∃ got, v.wire = s₀.wire ++ got ∧ got.length = n + 1 ∧ (got.map Prod.snd)[n]? = some v.rxbuf ∧
    ∀ i < n, (got.map Prod.snd)[bif intended i then i + 1 else i]? = some (v.storedByte i)

/-- The first round starts after the address byte. -/
theorem RoundStart.of_address {s₀ v : State} (intended : Nat → Bool) (h : v.RoundReady) (hopc : v.opc = s₀.opc)
    (hcnt : v.cnt = s₀.cnt) (hcap : v.bufcap = s₀.bufcap) (hidx : v.idx = 0) (hwf : s₀.opc ≠ 7 → Memory.wf v.buf = true)
    (hwire : v.wire = s₀.wire) (m : Byte) : RoundStart s₀ intended 0 (v.exchanged v.adr m v.idx) where
  wait := rfl
  en := h.en
  txfull := rfl
  busy := rfl
  ifgRxf := rfl
  ph := rfl
  opc := hopc
  cnt := hcnt
  bufcap := hcap
  idx := congrArg BitVec.toNat hidx
  wf := hwf
  wire := ⟨[(v.adr, m)], congrArg (· ++ [(v.adr, m)]) hwire, rfl, rfl, by simp⟩

/-- The byte a store puts at the current position, and every other index as before. -/
theorem State.storedByte_storeByte {v : State} {b : Byte} (hone : v.opc = 7 → v.idx = 0)
    (hwf : v.opc ≠ 7 → Memory.wf v.buf = true) (i : Nat) (hi : i ≤ v.idx.toNat) :
    (v.storeByte b).storedByte i = if i = v.idx.toNat then b else v.storedByte i := by
  by_cases ho : v.opc = 7
  · have hi0 : i = v.idx.toNat := by simpa [hone ho] using hi
    rw [if_pos hi0, State.storedByte, if_pos (show (v.storeByte b).opc = 7 from ho)]
    exact if_pos ho
  · have hbuf : (v.storeByte b).buf = Memory.write v.buf v.idx.toNat b := if_neg ho
    rw [State.storedByte, if_neg (show ¬(v.storeByte b).opc = 7 from ho), State.storedByte, if_neg ho, hbuf]
    split_ifs with hi0
    · rw [hi0, Memory.read_write_self (hwf ho)]
    · exact Memory.read_write_of_ne _ _ hi0

/-- The round with the choice of the byte before or the intended one leads to the next round. -/
theorem RoundStart.leads_next {s₀ v : State} {intended : Nat → Bool} {n : Nat} (h : RoundStart s₀ intended n v)
    (hn : n < s₀.cnt.toNat) (hone : s₀.opc = 7 → s₀.cnt = 1) (hcap : s₀.opc = 7 ∨ s₀.cnt.toNat ≤ s₀.bufcap) :
    Leads v (RoundStart s₀ intended (n + 1)) := by
  have hlt : v.idx < v.cnt := BitVec.lt_def.mpr (by rw [h.idx, h.cnt]; exact hn)
  have hidx := toNat_succ_of_lt hlt
  have hcap' : v.opc = 7 ∨ v.idx.toNat < v.bufcap := by
    rw [h.opc, h.idx, h.bufcap]
    exact hcap.imp_right hn.trans_le
  have hone' : v.opc = 7 → v.idx = 0 := fun ho => by
    rw [h.cnt, hone (h.opc ▸ ho)] at hlt
    bv_omega
  have hwf : v.opc ≠ 7 → Memory.wf v.buf = true := fun ho => h.wf (h.opc ▸ ho)
  refine Leads.mono (leads_round h.toRoundReady h.ph hlt hcap' (intended n)) ?_
  rintro _ ⟨m, rfl⟩
  generalize hb : (bif intended n then m else v.rxbuf) = b
  refine { wait := rfl, en := h.en, txfull := rfl, busy := rfl, ifgRxf := rfl, ph := rfl, opc := h.opc, cnt := h.cnt,
           bufcap := h.bufcap, idx := hidx.trans (by rw [h.idx]), wf := fun ho => ?_, wire := ?_ }
  · have ho' : ¬v.opc = 7 := h.opc ▸ ho
    have hbuf : (v.storeByte b).buf = Memory.write v.buf v.idx.toNat b := if_neg ho'
    exact hbuf ▸ Memory.write_wf (hwf ho') _ _
  · obtain ⟨got, hwire, hlen, hlast, hstored⟩ := h.wire
    have hin : ∀ j, j ≤ n → ((got ++ [(dummyByte, m)]).map Prod.snd)[j]? = (got.map Prod.snd)[j]? := fun j hj => by
      rw [List.map_append, List.getElem?_append_left (by simp; omega)]
    have hnew : ((got ++ [(dummyByte, m)]).map Prod.snd)[n + 1]? = some m := by simp [← hlen]
    refine ⟨got ++ [(dummyByte, m)], ?_, by simp [hlen], hnew, fun i hi => ?_⟩
    · rw [← List.append_assoc, ← hwire]
      rfl
    have hbyte := State.storedByte_storeByte (b := b) hone' hwf i (by rw [h.idx]; omega)
    refine Eq.trans ?_ (congrArg some hbyte.symm)
    rw [h.idx]
    split_ifs with hin'
    · subst hin'
      rw [← hb]
      cases intended i
      · exact (hin i le_rfl).trans hlast
      · exact hnew
    · have hold := hstored i (by omega)
      rw [← hold]
      exact hin _ (by cases intended i <;> simp <;> omega)

/-- Every choice is reached round by round. -/
theorem RoundStart.leads_last {s₀ v : State} {intended : Nat → Bool} (h : RoundStart s₀ intended 0 v)
    (hone : s₀.opc = 7 → s₀.cnt = 1) (hcap : s₀.opc = 7 ∨ s₀.cnt.toNat ≤ s₀.bufcap) :
    Leads v (RoundStart s₀ intended s₀.cnt.toNat) := by
  suffices hall : ∀ n ≤ s₀.cnt.toNat, Leads v (RoundStart s₀ intended n) from hall _ le_rfl
  intro n
  induction n with
  | zero => exact fun _ s _ hs => ⟨s, .refl s, hs ▸ h⟩
  | succ n ih => exact fun hn => (ih (by omega)).trans fun w hw => hw.leads_next hn hone hcap

/-- No wait continues in phase IDLE. -/
theorem State.ExchangeInv.ph_of_stage_idle {t : State} (h : t.ExchangeInv) (hstage : t.stage = .idle) : t.ph = .idle := by
  cases hin : t.ph.inWait with
  | false => rwa [State.stage_of_outside hin] at hstage
  | true =>
    have hret := h.returns hin
    rw [State.stage_of_inWait hin] at hstage
    simp [hstage, Phase.continues] at hret

/-- A register read issued with a stale flag reaches every choice. -/
theorem exists_returnsIn_intended {i : Instr} {s : State} (hs : s.afterSend) (hp : (issue i s).ph = .rrAddr)
    (hone : i.opcode = 7 → (issue i s).cnt = 1) (hcap : i.opcode = 7 ∨ (issue i s).cnt.toNat ≤ s.bufcap)
    (hwf : i.opcode ≠ 7 → Memory.wf s.buf = true) (intended : Nat → Bool) :
    ∃ t, ReturnsIn (issue i s) t ∧ t.opc = i.opcode ∧ ∀ k < (issue i s).cnt.toNat,
      (newBytesIn s t)[bif intended k then k + 1 else k]? = some (t.storedByte k) := by
  have hview := State.view_of_outside (s := issue i s) (by simp)
  have hready : (issue i s).view.RoundReady := by
    rw [hview]
    exact ⟨rfl, by simp [hs.en], by simp [hs.txfull], by simp [hs.busy], by simp [hs.ifgRxf]⟩
  have hend : Leads (issue i s).view fun w => w.ph = .idle ∧ w.opc = i.opcode ∧
      ∃ got, w.wire = s.wire ++ got ∧ ∀ k < (issue i s).cnt.toNat,
        (got.map Prod.snd)[bif intended k then k + 1 else k]? = some (w.storedByte k) := by
    refine (leads_address hready (by rw [hview]; exact hp)).trans ?_
    rintro _ ⟨m, rfl⟩
    have hstart := RoundStart.of_address (s₀ := issue i s) intended hready rfl rfl rfl (by rw [hview]; simp)
      (by rw [hview]; simpa using hwf) rfl m
    refine (hstart.leads_last (by simpa using hone) (by simpa using hcap)).trans fun w hw => ?_
    have hge : w.cnt ≤ w.idx := BitVec.le_def.mpr (by rw [hw.idx, hw.cnt])
    refine Leads.mono (leads_rrReturn hw.wait hw.ph hge) ?_
    rintro _ rfl
    obtain ⟨got, hwire, -, -, hstored⟩ := hw.wire
    exact ⟨rfl, hw.opc.trans (by simp), got, hwire.trans (by simp), hstored⟩
  obtain ⟨t, hreach, hidle, hopc, got, hwire, hstored⟩ := hend (issue i s) (hs.exchangeInv_issue i) rfl
  have hte := hreach.exchangeInv (hs.exchangeInv_issue i)
  exact ⟨t, ⟨hreach, hte.ph_of_stage_idle hidle⟩, hopc, fun k hk => by
    rw [newBytesIn_of_wire (t := t) hwire]
    exact hstored k hk⟩

/-- Settles O42: the interleavings built round by round, for the buffer form and for the byte form. -/
theorem staleFlagReadReachesEveryResult : Obligations.StaleFlagReadReachesEveryResult := by
  refine ⟨fun s s1 regaddr count intended hs hwf hcap hiss => ?_, fun s s1 regaddr intended hs hiss => ?_⟩
  · obtain rfl := hiss.eq
    obtain ⟨t, ht, hopc, hstored⟩ := exists_returnsIn_intended hs rfl
      (fun h => absurd h (sarecv_opcode_ne regaddr count)) (.inr hcap) (fun _ => hwf) intended
    have hbyte : ∀ k, t.storedByte k = Memory.read t.buf k := fun k =>
      if_neg fun h => sarecv_opcode_ne regaddr count (hopc.symm.trans h)
    exact ⟨t, ht, fun k hk => hbyte k ▸ hstored k hk⟩
  · obtain rfl := hiss.eq
    obtain ⟨t, ht, hopc, hstored⟩ := exists_returnsIn_intended (i := .sarecvb regaddr) hs rfl (fun _ => rfl) (.inl rfl)
      (fun h => absurd rfl h) (fun _ => intended)
    have hbyte : t.storedByte 0 = t.res := if_pos hopc
    refine ⟨t, ht, ?_⟩
    cases intended <;> exact hbyte ▸ hstored 0 Nat.one_pos

end Sys2Proof.Machine
end
